-- ==== Sys2Proof/Word.lean ====
section
/-! DEFINITION. The word type: FSV handles bytes and nothing wider (00_scope.md R12, 20_memory.md R45). -/

namespace Sys2Proof

/-- A byte, bits 7 (most significant) to 0 (00_scope.md R12). FSV interprets none as signed. -/
abbrev Byte := BitVec 8

end Sys2Proof
end

