-- ==== Sys2Proof/Config.lean ====
section
/-! DEFINITION. The constants of the wire format and the parameters a machine is built with
(00_scope.md R7 to R11, 92_eei_decisions.md D2, D3, D4, D22, D25). -/

namespace Sys2Proof

/-- The start byte (00_scope.md R7: "start: byte(fixed=0xAA)"). -/
def START : Byte := 0xAA#8

/-- The smallest frame, L = 0 (00_scope.md R7). -/
def MIN_FRAME : Nat := 4

/-- The largest value of the one-byte length field (00_scope.md R7). -/
def MAX_LEN : Nat := 255

/-- The largest frame (00_scope.md R7). -/
def MAX_FRAME : Nat := 259

@[simp] theorem MIN_FRAME_eq : MIN_FRAME = 4 := rfl
@[simp] theorem MAX_LEN_eq : MAX_LEN = 255 := rfl
@[simp] theorem MAX_FRAME_eq : MAX_FRAME = 259 := rfl
/-- 00_scope.md R7: `MAX_FRAME = 259 = MIN_FRAME + MAX_LEN`. -/
theorem MAX_FRAME_sum : MAX_FRAME = MIN_FRAME + MAX_LEN := rfl

/-- What happens to a byte offered while the window is full (00_scope.md R9, 90_conflicts.md C8). -/
inductive OverflowPolicy where
  /-- The byte is taken and discarded, and counted in RX_DROPPED (42_accept.md R79). -/
  | drop
  /-- The byte is not taken (42_accept.md R78). -/
  | backpressure
  deriving DecidableEq, Repr

/-- The sink's reading of tendon and spool targets (92_eei_decisions.md D22, OPEN). No FSV rule uses it. -/
inductive TendonSpoolEncoding where
  | int32
  | float32
  deriving DecidableEq, Repr

/-- The parameters fixed when FSV is built; no operation sets them (00_scope.md R8 to R10,
70_reset_and_hazards.md R123 (1)). DESIGN CHOICE (log 12): CNT_W may be any natural number. -/
structure Config where
  /-- RX_CAP, the window's capacity in bytes (00_scope.md R8). -/
  rxCap : Nat
  /-- OVF_POLICY (00_scope.md R9). -/
  ovfPolicy : OverflowPolicy
  /-- CNT_W, the width in bits of each statistics counter (00_scope.md R10). -/
  cntW : Nat
  /-- TENDON_SPOOL_ENCODING (92_eei_decisions.md D22). -/
  tendonSpool : TendonSpoolEncoding
  deriving DecidableEq, Repr

/-- A configuration with RX_CAP < MIN_FRAME is not an FSV (00_scope.md R8, 92_eei_decisions.md D25). -/
def Config.ok (c : Config) : Bool := decide (MIN_FRAME ≤ c.rxCap)

/-- The defaults of 00_scope.md R8 to R10. DESIGN CHOICE (log 2): TENDON_SPOOL_ENCODING is INT32,
since the spec gives no default; nothing reads it. -/
def Config.default : Config := ⟨259, .drop, 32, .int32⟩

/-- WCNT_W = ceil(log2(RX_CAP + 1)), the number of binary digits of RX_CAP (00_scope.md R11). -/
def Config.wcntW (c : Config) : Nat := if c.rxCap = 0 then 0 else Nat.log2 c.rxCap + 1

end Sys2Proof
end

