-- ==== Sys2Proof/Syntax.lean ====
section
/-! DEFINITION. The instructions: one constructor of Instr per row of spec/opcode_table.json (six
operations and seventeen frame types), and the lines of the spec's operation programs
(30_encoding.md R60, R63, R65, R67, R68, R69). -/

namespace Sys2Proof

/-- The frame types of 30_encoding.md R60, and UNKNOWN for every other TYPE byte (R61). -/
inductive FrameKind where
  | ping | pong | ack | nack
  | cmdSetMode | cmdSetParam | cmdStart | cmdStop
  | cmdReset | cmdReadSensor | cmdSetTendons | cmdSetSpool
  | statusUpdate | sensorData | errorReport | debugMessage
  | unknown (t : Byte)
  deriving DecidableEq, Repr

/-- The direction column of 30_encoding.md R60. FSV never filters by it (R61). -/
inductive Direction where
  | either
  | toExecutor
  | toSupervisor
  deriving DecidableEq, Repr

/-- The type classes of 30_encoding.md R62. -/
inductive TypeClass where
  | unknown
  | control
  | command
  | report
  deriving DecidableEq, Repr

/-- The instructions. The first six are the atomic operations of 00_scope.md R6; a Bool that an
operation ignores is its word's bit cmd[2], kept so that no bit of an encoding is dropped. The others
are validated frames of the type named, with their payload in wire order (30_encoding.md R55). -/
inductive Instr where
  | push (b : Byte)
  | poll (x : Bool)
  | clear (x : Bool)
  | handler (en : Bool)
  | reserved (x : Bool)
  | reset
  | ping (payload : List Byte)
  | pong (payload : List Byte)
  | ack (payload : List Byte)
  | nack (payload : List Byte)
  | cmdSetMode (payload : List Byte)
  | cmdSetParam (payload : List Byte)
  | cmdStart (payload : List Byte)
  | cmdStop (payload : List Byte)
  | cmdReset (payload : List Byte)
  | cmdReadSensor (payload : List Byte)
  | cmdSetTendons (payload : List Byte)
  | cmdSetSpool (payload : List Byte)
  | statusUpdate (payload : List Byte)
  | sensorData (payload : List Byte)
  | errorReport (payload : List Byte)
  | debugMessage (payload : List Byte)
  | unknown (t : Byte) (payload : List Byte)
  deriving DecidableEq, Repr

/-- The frame instruction of a kind. -/
def Instr.ofFrame (k : FrameKind) (p : List Byte) : Instr :=
  match k with
  | .ping => .ping p
  | .pong => .pong p
  | .ack => .ack p
  | .nack => .nack p
  | .cmdSetMode => .cmdSetMode p
  | .cmdSetParam => .cmdSetParam p
  | .cmdStart => .cmdStart p
  | .cmdStop => .cmdStop p
  | .cmdReset => .cmdReset p
  | .cmdReadSensor => .cmdReadSensor p
  | .cmdSetTendons => .cmdSetTendons p
  | .cmdSetSpool => .cmdSetSpool p
  | .statusUpdate => .statusUpdate p
  | .sensorData => .sensorData p
  | .errorReport => .errorReport p
  | .debugMessage => .debugMessage p
  | .unknown t => .unknown t p

/-- A frame instruction's kind and payload; none for the six operations. -/
def Instr.frame? (i : Instr) : Option (FrameKind × List Byte) :=
  match i with
  | .push _ => none
  | .poll _ => none
  | .clear _ => none
  | .handler _ => none
  | .reserved _ => none
  | .reset => none
  | .ping p => some (.ping, p)
  | .pong p => some (.pong, p)
  | .ack p => some (.ack, p)
  | .nack p => some (.nack, p)
  | .cmdSetMode p => some (.cmdSetMode, p)
  | .cmdSetParam p => some (.cmdSetParam, p)
  | .cmdStart p => some (.cmdStart, p)
  | .cmdStop p => some (.cmdStop, p)
  | .cmdReset p => some (.cmdReset, p)
  | .cmdReadSensor p => some (.cmdReadSensor, p)
  | .cmdSetTendons p => some (.cmdSetTendons, p)
  | .cmdSetSpool p => some (.cmdSetSpool, p)
  | .statusUpdate p => some (.statusUpdate, p)
  | .sensorData p => some (.sensorData, p)
  | .errorReport p => some (.errorReport, p)
  | .debugMessage p => some (.debugMessage, p)
  | .unknown t p => some (.unknown t, p)

/-- Whether an instruction is one of the six atomic operations of 00_scope.md R6. -/
def Instr.isOperation (i : Instr) : Bool := i.frame?.isNone

/-- What stands at FSV's pins in one cycle: the reset input (30_encoding.md R67), the byte input port
(R65) and the host command port (R63). -/
structure PortCycle where
  rst : Bool
  inValid : Bool
  inData : Byte
  cmdValid : Bool
  cmd : BitVec 3
  deriving DecidableEq, Repr

/-- An encoded input: a word of one of FSV's ports, or the bytes of one wire frame. -/
inductive PortWord where
  /-- in_valid and in_data[7:0] (30_encoding.md R65). -/
  | inPort (valid : Bool) (data : Byte)
  /-- cmd[2:0], with cmd_valid = 1 (30_encoding.md R63). -/
  | command (w : BitVec 3)
  /-- The reset input (30_encoding.md R67). -/
  | rstPin (asserted : Bool)
  /-- A frame's bytes in arrival order (30_encoding.md R55). -/
  | wire (bytes : List Byte)
  deriving DecidableEq, Repr

/-- A line of an operation program: the forms of 30_encoding.md R68 and the pseudo-operations of R69. -/
inductive Line where
  | push (bs : List Byte)
  | frame (t : Byte) (p : List Byte)
  | poll (n : Nat)
  | clear
  | handler (en : Bool)
  | reserved (a : Bool)
  | reset
  deriving DecidableEq, Repr

end Sys2Proof
end

