-- ==== Sys2Proof/WellFormed.lean ====
section
/-! DEFINITION. Which instructions the encodings can express (30_encoding.md R56, R60, R61). -/

namespace Sys2Proof

/-- The codes that 30_encoding.md R60 names, read off its table. -/
def knownCodes : List Byte :=
  [0x01#8, 0x02#8, 0x03#8, 0x04#8] ++
  [0x10#8, 0x11#8, 0x12#8, 0x13#8, 0x14#8, 0x15#8, 0x16#8, 0x17#8] ++
  [0x20#8, 0x21#8, 0x22#8, 0x23#8]

/-- UNKNOWN stands for the codes outside the table only (30_encoding.md R60, R61). -/
def FrameKind.wellFormed (k : FrameKind) : Bool :=
  match k with
  | .unknown t => !knownCodes.contains t
  | .ping | .pong | .ack | .nack => true
  | .cmdSetMode | .cmdSetParam | .cmdStart | .cmdStop => true
  | .cmdReset | .cmdReadSensor | .cmdSetTendons | .cmdSetSpool => true
  | .statusUpdate | .sensorData | .errorReport | .debugMessage => true

/-- LENGTH is one byte, so a payload has 0 to 255 bytes (30_encoding.md R55, R56). Every operation is
well formed. -/
def Instr.wellFormed (i : Instr) : Bool :=
  match i.frame? with
  | none => true
  | some (k, p) => k.wellFormed && decide (p.length ≤ MAX_LEN)

end Sys2Proof
end

