-- ==== Sys2Proof/Decode.lean ====
section
/-! DEFINITION. The encodings of 30_encoding.md, the checksum and frame functions of 41_checksum.md
that they rest on, the decoder (total, rejecting by name), the encoder, and the opcode table. -/

namespace Sys2Proof

/-! ## Checksum and frame validity (41_checksum.md) -/

/-- `Checksum(s)`, the XOR fold with identity 0x00 (41_checksum.md R71). -/
def checksum (s : List Byte) : Byte := s.foldl (· ^^^ ·) 0x00#8

/-- The byte of a sequence at an offset; every use is at an offset below the length. -/
def byteAt (c : List Byte) (i : Nat) : Byte := c.getD i 0x00#8

/-- TYPE, frame offset 1 (30_encoding.md R55, R58). -/
def typeByte (c : List Byte) : Byte := byteAt c 1

/-- LENGTH, frame offset 2 (30_encoding.md R55, R58). -/
def lengthByte (c : List Byte) : Byte := byteAt c 2

/-- `E = MIN_FRAME + L`, with L zero-extended (30_encoding.md R56, R58). -/
def frameLength (l : Byte) : Nat := MIN_FRAME + l.toNat

/-- PAYLOAD, frame offsets 3 to 3+L-1 (30_encoding.md R55, R58). -/
def payloadBytes (c : List Byte) : List Byte := (c.drop 3).take (lengthByte c).toNat

/-- `ChecksumOK(c)`: the fold over offsets 1 to E-2 equals offset E-1 (41_checksum.md R73). -/
def checksumOK (c : List Byte) : Bool :=
  checksum ((c.drop 1).take (c.length - 2)) == byteAt c (c.length - 1)

/-- `WellFormed(s)`, the source's valid frame (41_checksum.md R74). -/
def wireWellFormed (s : List Byte) : Bool :=
  decide (4 ≤ s.length) && byteAt s 0 == START && s.length == frameLength (lengthByte s) && checksumOK s

/-- The bytes of a frame with type T and payload P of at most 255 bytes (41_checksum.md R76). -/
def frameBytes (t : Byte) (p : List Byte) : List Byte :=
  let l := BitVec.ofNat 8 p.length
  [START, t, l] ++ p ++ [t ^^^ l ^^^ checksum p]

/-- `Frame(T, P)`, the reference frame builder, which refuses an oversized payload (41_checksum.md R76). -/
def buildFrame (t : Byte) (p : List Byte) : Option (List Byte) :=
  if p.length ≤ MAX_LEN then some (frameBytes t p) else none

/-! ## Frame type codes (30_encoding.md R60, R62; 45_dispatch.md R104) -/

/-- A kind's TYPE byte (30_encoding.md R60). -/
def FrameKind.code (k : FrameKind) : Byte :=
  match k with
  | .ping => 0x01#8
  | .pong => 0x02#8
  | .ack => 0x03#8
  | .nack => 0x04#8
  | .cmdSetMode => 0x10#8
  | .cmdSetParam => 0x11#8
  | .cmdStart => 0x12#8
  | .cmdStop => 0x13#8
  | .cmdReset => 0x14#8
  | .cmdReadSensor => 0x15#8
  | .cmdSetTendons => 0x16#8
  | .cmdSetSpool => 0x17#8
  | .statusUpdate => 0x20#8
  | .sensorData => 0x21#8
  | .errorReport => 0x22#8
  | .debugMessage => 0x23#8
  | .unknown t => t

/-- The kind a TYPE byte names; every byte no row names is UNKNOWN and legal (30_encoding.md R60, R61). -/
def FrameKind.ofCode (t : Byte) : FrameKind :=
  match t.toNat with
  | 0x01 => .ping
  | 0x02 => .pong
  | 0x03 => .ack
  | 0x04 => .nack
  | 0x10 => .cmdSetMode
  | 0x11 => .cmdSetParam
  | 0x12 => .cmdStart
  | 0x13 => .cmdStop
  | 0x14 => .cmdReset
  | 0x15 => .cmdReadSensor
  | 0x16 => .cmdSetTendons
  | 0x17 => .cmdSetSpool
  | 0x20 => .statusUpdate
  | 0x21 => .sensorData
  | 0x22 => .errorReport
  | 0x23 => .debugMessage
  | _ => .unknown t

/-- The direction column of 30_encoding.md R60; none for a code outside the table. -/
def FrameKind.direction (k : FrameKind) : Option Direction :=
  match k with
  | .ping | .pong | .ack | .nack => some .either
  | .cmdSetMode | .cmdSetParam | .cmdStart | .cmdStop => some .toExecutor
  | .cmdReset | .cmdReadSensor | .cmdSetTendons | .cmdSetSpool => some .toExecutor
  | .statusUpdate | .sensorData | .errorReport | .debugMessage => some .toSupervisor
  | .unknown _ => none

/-- The least payload length the sink's decoder requires (45_dispatch.md R106, informative; none
where the spec states none). FSV never reads it: it dispatches a frame whatever its payload length. -/
def FrameKind.decoderMinLen (k : FrameKind) : Option Nat :=
  match k with
  | .cmdSetParam => some 5
  | .cmdSetTendons => some 12
  | .cmdSetSpool => some 4
  | .cmdReadSensor => some 1
  | .ping | .pong | .ack | .nack => none
  | .cmdSetMode | .cmdStart | .cmdStop | .cmdReset => none
  | .statusUpdate | .sensorData | .errorReport | .debugMessage => none
  | .unknown _ => none

/-- The classes follow the direction column (30_encoding.md R62). -/
def Direction.typeClass (d : Option Direction) : TypeClass :=
  match d with
  | some .either => .control
  | some .toExecutor => .command
  | some .toSupervisor => .report
  | none => .unknown

/-- The 2-bit code of a class (30_encoding.md R62). -/
def TypeClass.code (c : TypeClass) : BitVec 2 :=
  match c with
  | .unknown => 0
  | .control => 1
  | .command => 2
  | .report => 3

/-- `Class(t)` (45_dispatch.md R104). -/
def classOf (t : Byte) : TypeClass :=
  if 0x01 ≤ t.toNat ∧ t.toNat ≤ 0x04 then .control
  else if 0x10 ≤ t.toNat ∧ t.toNat ≤ 0x17 then .command
  else if 0x20 ≤ t.toNat ∧ t.toNat ≤ 0x23 then .report
  else .unknown

/-! ## The decoder -/

/-- Why an input is no instruction. -/
inductive DecodeReject where
  /-- in_valid is 0: no byte is offered (30_encoding.md R65). -/
  | strobeLow
  /-- The reset input is not asserted (30_encoding.md R67). -/
  | resetReleased
  /-- Fewer than MIN_FRAME bytes (30_encoding.md R56). -/
  | tooShort
  /-- The first byte is not START (30_encoding.md R55). -/
  | noStartByte
  /-- Fewer bytes than LENGTH declares (30_encoding.md R56). -/
  | truncated
  /-- The checksum test fails: FSV's only rejection (30_encoding.md R70). -/
  | checksumMismatch
  /-- Bytes after the one frame. -/
  | trailingBytes
  deriving DecidableEq, Repr

/-- A command word: cmd[1:0] selects, cmd[2] is the argument (30_encoding.md R63, R64). Total. -/
def decodeCommand (w : BitVec 3) : Instr :=
  match w.toNat % 4 with
  | 0 => .poll (w.getLsbD 2)
  | 1 => .clear (w.getLsbD 2)
  | 2 => .handler (w.getLsbD 2)
  | _ => .reserved (w.getLsbD 2)

/-- The frame at the front of a byte sequence, with the bytes after it (30_encoding.md R55 to R58, R70). -/
def decodeFrame (bs : List Byte) : Except DecodeReject (Instr × List Byte) :=
  if bs.length < MIN_FRAME then .error .tooShort
  else if byteAt bs 0 ≠ START then .error .noStartByte
  else if bs.length < frameLength (lengthByte bs) then .error .truncated
  else
    let c := bs.take (frameLength (lengthByte bs))
    if checksumOK c then
      .ok (.ofFrame (.ofCode (typeByte c)) (payloadBytes c), bs.drop (frameLength (lengthByte bs)))
    else .error .checksumMismatch

/-- The decoder: total, rejecting by name. -/
def decode (w : PortWord) : Except DecodeReject Instr :=
  match w with
  | .inPort true b => .ok (.push b)
  | .inPort false _ => .error .strobeLow
  | .command w => .ok (decodeCommand w)
  | .rstPin true => .ok .reset
  | .rstPin false => .error .resetReleased
  | .wire bs =>
    match decodeFrame bs with
    | .ok (i, []) => .ok i
    | .ok (_, _ :: _) => .error .trailingBytes
    | .error e => .error e

/-! ## The encoder -/

/-- The command word with argument `a` and selector `sel` (30_encoding.md R63). -/
def commandWord (a : Bool) (sel : BitVec 2) : BitVec 3 := BitVec.ofBool a ++ sel

/-- A frame instruction's bytes on the wire (30_encoding.md R55, R60). -/
def encodeFrame (k : FrameKind) (p : List Byte) : PortWord := .wire (frameBytes k.code p)

/-- The encoding of an instruction (30_encoding.md R55, R63, R65, R67, R68). -/
def encode (i : Instr) : PortWord :=
  match i with
  | .push b => .inPort true b
  | .poll x => .command (commandWord x 0b00)
  | .clear x => .command (commandWord x 0b01)
  | .handler en => .command (commandWord en 0b10)
  | .reserved x => .command (commandWord x 0b11)
  | .reset => .rstPin true
  | .ping p => encodeFrame .ping p
  | .pong p => encodeFrame .pong p
  | .ack p => encodeFrame .ack p
  | .nack p => encodeFrame .nack p
  | .cmdSetMode p => encodeFrame .cmdSetMode p
  | .cmdSetParam p => encodeFrame .cmdSetParam p
  | .cmdStart p => encodeFrame .cmdStart p
  | .cmdStop p => encodeFrame .cmdStop p
  | .cmdReset p => encodeFrame .cmdReset p
  | .cmdReadSensor p => encodeFrame .cmdReadSensor p
  | .cmdSetTendons p => encodeFrame .cmdSetTendons p
  | .cmdSetSpool p => encodeFrame .cmdSetSpool p
  | .statusUpdate p => encodeFrame .statusUpdate p
  | .sensorData p => encodeFrame .sensorData p
  | .errorReport p => encodeFrame .errorReport p
  | .debugMessage p => encodeFrame .debugMessage p
  | .unknown t p => encodeFrame (.unknown t) p

/-- One cycle in which nothing is presented. -/
def PortCycle.idle : PortCycle := ⟨false, false, 0x00#8, false, 0b000#3⟩

/-- The cycles that present an encoded input at the pins, one entry a cycle. A wire frame arrives as
its bytes, in offset order (20_memory.md R42, 30_encoding.md R69). -/
def PortWord.cycles (w : PortWord) : List PortCycle :=
  match w with
  | .inPort v b => [{ PortCycle.idle with inValid := v, inData := b }]
  | .command w => [{ PortCycle.idle with cmdValid := true, cmd := w }]
  | .rstPin a => [{ PortCycle.idle with rst := a }]
  | .wire bs => bs.map fun b => { PortCycle.idle with inValid := true, inData := b }

/-- The operations a line performs: the forms of 30_encoding.md R68, and R69's pseudo-operations
expanded. None where R69 refuses the form (`frame` with more than 255 payload bytes). -/
def Line.expand (l : Line) : Option (List Instr) :=
  match l with
  | .push bs => some (bs.map .push)
  | .frame t p => (buildFrame t p).map fun f => f.map .push
  | .poll n => some (List.replicate n (.poll false))
  | .clear => some [.clear false]
  | .handler en => some [.handler en]
  | .reserved a => some [.reserved a]
  | .reset => some [.reset]

/-! ## The opcode table (spec/opcode_table.json) -/

/-- The word formats of the table's rows. -/
inductive RowFormat where
  | inPort
  | cmd3
  | rst
  | frameType
  deriving DecidableEq, Repr

/-- A row of the table: its mnemonic, its format, and the match and mask of its word. -/
structure Row where
  mnemonic : String
  format : RowFormat
  matchBits : Nat
  maskBits : Nat
  deriving DecidableEq, Repr

/-- An instruction's row. The table gives `reset` no number; its pin asserted is 1 here. -/
def Instr.row (i : Instr) : Row :=
  match i with
  | .push _ => ⟨"push", .inPort, 0b1, 0b1⟩
  | .poll _ => ⟨"poll", .cmd3, 0b000, 0b011⟩
  | .clear _ => ⟨"clear", .cmd3, 0b001, 0b011⟩
  | .handler _ => ⟨"handler", .cmd3, 0b010, 0b011⟩
  | .reserved _ => ⟨"reserved", .cmd3, 0b011, 0b011⟩
  | .reset => ⟨"reset", .rst, 0b1, 0b1⟩
  | .ping _ => ⟨"PING", .frameType, 0x01, 0xFF⟩
  | .pong _ => ⟨"PONG", .frameType, 0x02, 0xFF⟩
  | .ack _ => ⟨"ACK", .frameType, 0x03, 0xFF⟩
  | .nack _ => ⟨"NACK", .frameType, 0x04, 0xFF⟩
  | .cmdSetMode _ => ⟨"CMD_SET_MODE", .frameType, 0x10, 0xFF⟩
  | .cmdSetParam _ => ⟨"CMD_SET_PARAM", .frameType, 0x11, 0xFF⟩
  | .cmdStart _ => ⟨"CMD_START", .frameType, 0x12, 0xFF⟩
  | .cmdStop _ => ⟨"CMD_STOP", .frameType, 0x13, 0xFF⟩
  | .cmdReset _ => ⟨"CMD_RESET", .frameType, 0x14, 0xFF⟩
  | .cmdReadSensor _ => ⟨"CMD_READ_SENSOR", .frameType, 0x15, 0xFF⟩
  | .cmdSetTendons _ => ⟨"CMD_SET_TENDONS", .frameType, 0x16, 0xFF⟩
  | .cmdSetSpool _ => ⟨"CMD_SET_SPOOL", .frameType, 0x17, 0xFF⟩
  | .statusUpdate _ => ⟨"STATUS_UPDATE", .frameType, 0x20, 0xFF⟩
  | .sensorData _ => ⟨"SENSOR_DATA", .frameType, 0x21, 0xFF⟩
  | .errorReport _ => ⟨"ERROR_REPORT", .frameType, 0x22, 0xFF⟩
  | .debugMessage _ => ⟨"DEBUG_MESSAGE", .frameType, 0x23, 0xFF⟩
  | .unknown _ _ => ⟨"UNKNOWN", .frameType, 0x00, 0x00⟩

/-- The format and the number of an encoded input, as the table numbers them: the strobe for the input
port and the reset pin, cmd[2:0], or the TYPE byte. -/
def PortWord.rowNumber (w : PortWord) : RowFormat × Nat :=
  match w with
  | .inPort v _ => (.inPort, v.toNat)
  | .command w => (.cmd3, w.toNat)
  | .rstPin a => (.rst, a.toNat)
  | .wire bs => (.frameType, (typeByte bs).toNat)

/-- The low `n` bytes of a number, the least significant first. -/
def bytesOf (n w : Nat) : List Byte := (List.range n).map fun i => BitVec.ofNat 8 (w >>> (8 * i))

/-- The input that the bits `w` of a table row stand for. DESIGN CHOICE (log 10): the table numbers
every format from bit 0 and does not say which port a number belongs to, so in one byte a number of
three bits is a command word (30_encoding.md R64: every one has a meaning) and a larger one is the
TYPE byte of a frame without payload. DESIGN CHOICE (log 16): two bytes are an input port word, the
strobe in bit 0 and in_data in the second byte; more are the bytes of a wire frame. -/
def tableWord (nbits w : Nat) : PortWord :=
  if nbits ≤ 8 then
    if w < 8 then .command (BitVec.ofNat 3 w) else .wire (frameBytes (BitVec.ofNat 8 w) [])
  else if nbits ≤ 16 then .inPort (w.testBit 0) (BitVec.ofNat 8 (w >>> 8))
  else .wire (bytesOf (nbits / 8) w)

/-- The instruction the decoder reads from the bits of a table row; none where it refuses. -/
def decodeTableWord (nbits w : Nat) : Option Instr := (decode (tableWord nbits w)).toOption

end Sys2Proof
end

