-- ==== Sys2Proof/Machine/State.lean ====
section
/-! DEFINITION. The machine's state as plain data (10_state.md R20, R37), its state after reset, and
the reasons a step can stop. -/

namespace Sys2Proof.Machine

/-- A byte space as a list of (index, byte) pairs; the canonical form is Memory.wf. WIN and
DSP_PAYLOAD are the two index spaces of 20_memory.md R40. -/
abbrev Memory := List Host.Cell

/-- What an index that is not listed reads as. In DSP_PAYLOAD it is the spec's reset value 0x00
(10_state.md R37). In WIN it is a DESIGN CHOICE (log 3): the spec leaves those bytes open and no rule
reads one (10_state.md R26). -/
def Memory.unlisted : Byte := 0x00#8

/-- The canonical form: indices strictly rising, and no entry equal to what an unlisted index reads. -/
def Memory.wf (m : Memory) : Bool :=
  m.all (fun c => c.2 != Memory.unlisted) && decide (m.Pairwise fun c d => c.1 < d.1)

/-- Every listed index is below a bound. -/
def Memory.below (n : Nat) (m : Memory) : Bool := m.all fun c => decide (c.1 < n)

/-- LAST_RESULT's values (10_state.md R31). Code 7 is reserved and never written, so it is no value
here (93_implementation_defined.md I16). -/
inductive LastResult where
  | none
  | deferShort
  | deferResync
  | deferPartial
  | validDispatched
  | validUnhandled
  | invalid
  deriving DecidableEq, Repr

/-- A dispatch event `Dispatch(t, L, P)` (45_dispatch.md R100). -/
structure DispatchEvent where
  type : Byte
  len : Byte
  payload : List Byte
  deriving DecidableEq, Repr

/-- The whole machine: the tuple of 10_state.md R20 (S0 to S9), the configuration (log 1), and two
fields of the model's own, `ports` (log 5) and `events` (log 8). -/
structure State where
  /-- The parameters; no operation changes them (10_state.md R20). -/
  cfg : Config
  /-- S0, WIN (10_state.md R24). -/
  win : Memory
  /-- S1, WCNT (10_state.md R25). -/
  wcnt : Nat
  /-- S2, RX_FRAMES (10_state.md R28). -/
  rxFrames : Nat
  /-- S3, RX_INVALID (10_state.md R29). -/
  rxInvalid : Nat
  /-- S4, RX_DROPPED (10_state.md R30). -/
  rxDropped : Nat
  /-- S5, HANDLER_EN (10_state.md R32). -/
  handlerEn : Bool
  /-- S6, LAST_RESULT (10_state.md R31). -/
  lastResult : LastResult
  /-- S7, DSP_TYPE (10_state.md R35). -/
  dspType : Byte
  /-- S8, DSP_LEN (10_state.md R35). -/
  dspLen : Byte
  /-- S9, DSP_PAYLOAD[0..255) (10_state.md R35). -/
  dspPayload : Memory
  /-- The model's own: what the agents present at the pins, oldest cycle first (log 5). -/
  ports : List PortCycle
  /-- The model's own: the dispatch events so far, oldest first (45_dispatch.md R100, log 8). -/
  events : List DispatchEvent
  deriving DecidableEq, Repr

/-- The reset state of a machine built with a configuration (10_state.md R37). WIN is unspecified
there: nothing is listed (log 3). DESIGN CHOICE (log 5, log 8): nothing is presented, no event yet. -/
def State.init (c : Config) : State where
  cfg := c
  win := []
  wcnt := 0
  rxFrames := 0
  rxInvalid := 0
  rxDropped := 0
  handlerEn := false
  lastResult := .none
  dspType := 0x00#8
  dspLen := 0x00#8
  dspPayload := []
  ports := []
  events := []

/-- The machine right after reset, with the default parameters (10_state.md R37, 00_scope.md R8 to R10). -/
def State.reset : State := State.init Config.default

/-- The reasons to stop with a fault: there are none. "No operation of FSV raises an exception, traps,
halts, locks up or enters an error state that needs intervention" (60_exceptions.md R107, log 13). -/
inductive Fault where
  deriving DecidableEq, Repr

/-- The reasons a step is refused. -/
inductive Refusal where
  /-- Raised by an arm of exec whose instruction has no meaning yet; safe. -/
  | notModelled (mnemonic : String)
  /-- Raised by step when RX_CAP < MIN_FRAME: such a configuration is not an FSV (00_scope.md R8,
  92_eei_decisions.md D25, log 11); safe. -/
  | rxCapBelowMinFrame
  /-- Raised by a frame instruction with more than 255 payload bytes, which no LENGTH byte can express
  and 30_encoding.md R69 and 41_checksum.md R76 refuse (log 17); safe. -/
  | oversizedPayload
  deriving DecidableEq, Repr

/-- What a meaning answers. -/
abbrev Result := Host.Outcome State Fault Refusal

/-- The next state of an answer, if it is one. -/
def Result.next? (r : Result) : Option State :=
  match r with
  | .next s => some s
  | .fault _ => none
  | .refused _ => none

end Sys2Proof.Machine
end

