-- ==== Sys2Proof/Machine/Ops.lean ====
section
/-! DEFINITION. The named operations over the state: the two byte spaces, the receive window, the
counters, the frame output registers, the dispatch event, and RESET. FSV takes no exception and
returns from none (60_exceptions.md R107, R113), so there is no operation for either. -/

namespace Sys2Proof.Machine

/-! ## Byte spaces (20_memory.md R40, R45) -/

/-- The byte at an index: `WIN[i]` and `DSP_PAYLOAD[i]` (00_scope.md R15). -/
def Memory.read (m : Memory) (a : Nat) : Byte :=
  match m with
  | [] => Memory.unlisted
  | (k, v) :: r => if k = a then v else Memory.read r a

/-- A byte listed before the first larger index. -/
def Memory.insertCell (m : Memory) (a : Nat) (v : Byte) : Memory :=
  match m with
  | [] => [(a, v)]
  | (k, w) :: r => if a < k then (a, v) :: (k, w) :: r else (k, w) :: Memory.insertCell r a v

/-- `WIN[i] <- v` (00_scope.md R15): the index's entry goes, and a new one stands in its place unless the
byte is what an unlisted index reads. It keeps the canonical form. -/
def Memory.write (m : Memory) (a : Nat) (v : Byte) : Memory :=
  let r := m.filter fun c => c.1 != a
  if v = Memory.unlisted then r else Memory.insertCell r a v

/-- Bytes written at consecutive indices from `a`, in order. -/
def Memory.writeBytes (m : Memory) (a : Nat) (bs : List Byte) : Memory :=
  match bs with
  | [] => m
  | b :: r => Memory.writeBytes (Memory.write m a b) (a + 1) r

/-- The bytes `m[0..n)`. -/
def Memory.prefixBytes (m : Memory) (n : Nat) : List Byte := (List.range n).map (Memory.read m)

/-- `m'[i] = m[i+n]` for i in 0 .. c-1, the loop of 20_memory.md R46; the other indices keep what they
hold (log 4). -/
def Memory.shiftDown (m : Memory) (n c : Nat) : Memory :=
  Memory.writeBytes m 0 ((List.range c).map fun i => Memory.read m (i + n))

/-! ## The receive window -/

/-- `WIN[0..WCNT)`, the buffered bytes, oldest first (10_state.md R26). -/
def State.bytes (s : State) : List Byte := s.win.prefixBytes s.wcnt

/-- `WIN[WCNT] <- b; WCNT <- WCNT + 1` (42_accept.md R77). -/
def State.appendByte (s : State) (b : Byte) : State :=
  { s with win := s.win.write s.wcnt b, wcnt := s.wcnt + 1 }

/-- `drop_front(n)` (20_memory.md R46), used with n at most WCNT. -/
def State.dropFront (s : State) (n : Nat) : State :=
  { s with win := s.win.shiftDown n (s.wcnt - n), wcnt := s.wcnt - n }

/-- `WCNT <- 0`; WIN is not written (44_control.md R95, 10_state.md R24). -/
def State.clearWindow (s : State) : State := { s with wcnt := 0 }

/-! ## Counters and status -/

/-- `(c + 1) mod 2^CNT_W` (10_state.md R34). -/
def bump (c w : Nat) : Nat := (c + 1) % 2 ^ w

/-- RX_FRAMES counts a candidate that passes (10_state.md R28). -/
def State.countReceived (s : State) : State := { s with rxFrames := bump s.rxFrames s.cfg.cntW }

/-- RX_INVALID counts a candidate that fails (10_state.md R29). -/
def State.countInvalid (s : State) : State := { s with rxInvalid := bump s.rxInvalid s.cfg.cntW }

/-- RX_DROPPED counts a byte discarded on overflow (10_state.md R30). -/
def State.countDropped (s : State) : State := { s with rxDropped := bump s.rxDropped s.cfg.cntW }

/-- `result <- CODE` (00_scope.md R15, 10_state.md R31). -/
def State.setResult (s : State) (r : LastResult) : State := { s with lastResult := r }

/-- `HANDLER_EN <- en` (44_control.md R96). -/
def State.setHandler (s : State) (en : Bool) : State := { s with handlerEn := en }

/-! ## Dispatch -/

/-- `DSP_TYPE <- t; DSP_LEN <- L; DSP_PAYLOAD[0..L) <- P`; the bytes past L keep what they hold
(10_state.md R35, 43_poll.md R87). -/
def State.writeDsp (s : State) (t : Byte) (p : List Byte) : State :=
  { s with dspType := t, dspLen := BitVec.ofNat 8 p.length, dspPayload := s.dspPayload.writeBytes 0 p }

/-- `emit Dispatch(t, L, P)` (45_dispatch.md R100). -/
def State.emit (s : State) (t : Byte) (p : List Byte) : State :=
  { s with events := s.events ++ [⟨t, BitVec.ofNat 8 p.length, p⟩] }

/-- A valid frame: counted; then dispatched if a sink is registered, else dropped (43_poll.md R87,
45_dispatch.md R105). -/
def State.deliver (s : State) (t : Byte) (p : List Byte) : State :=
  if s.handlerEn then (((s.countReceived).writeDsp t p).emit t p).setResult .validDispatched
  else (s.countReceived).setResult .validUnhandled

/-- What every frame instruction does with its type and payload (43_poll.md R87). FSV treats all types
alike (30_encoding.md R60, R61, 45_dispatch.md R103). -/
def receiveFrame (k : FrameKind) (p : List Byte) (s : State) : Result :=
  if p.length ≤ MAX_LEN then .next (s.deliver k.code p) else .refused .oversizedPayload

/-! ## RESET -/

/-- RESET (70_reset_and_hazards.md R120). WIN is not written (10_state.md R24); the configuration, the
schedule and the events already given stay (log 5, log 8). -/
def State.applyReset (s : State) : State :=
  { s with
    wcnt := 0
    rxFrames := 0
    rxInvalid := 0
    rxDropped := 0
    handlerEn := false
    lastResult := .none
    dspType := 0x00#8
    dspLen := 0x00#8
    dspPayload := [] }

end Sys2Proof.Machine
end

