-- ==== Sys2Proof/Machine/Operands.lean ====
section
/-! DEFINITION. What the operations read from the window: the full test, the resync index, the length
and the candidate (42_accept.md R78, 43_poll.md R83, R85, R86, 30_encoding.md R58). -/

namespace Sys2Proof.Machine

/-- WCNT < RX_CAP, the test of 42_accept.md R77. -/
def State.hasRoom (s : State) : Bool := decide (s.wcnt < s.cfg.rxCap)

/-- Whether a byte offered now is taken, reset apart (42_accept.md R78). -/
def State.takesByte (s : State) : Bool :=
  match s.cfg.ovfPolicy with
  | .drop => true
  | .backpressure => s.hasRoom

/-- `k`, the index of the first START in `WIN[0..WCNT)`, or WCNT if there is none (43_poll.md R83). -/
def State.resyncIndex (s : State) : Nat := s.bytes.findIdx (· == START)

/-- The state after step B (43_poll.md R83). -/
def State.resynced (s : State) : State := s.dropFront s.resyncIndex

/-- `E = MIN_FRAME + WIN[2]` (43_poll.md R85, 30_encoding.md R58). -/
def State.declaredLength (s : State) : Nat := frameLength (s.win.read 2)

/-- `c = WIN[0..E)` (43_poll.md R86). -/
def State.candidate (s : State) : List Byte := s.win.prefixBytes s.declaredLength

end Sys2Proof.Machine
end

