-- ==== Sys2Proof/Machine/Accept.lean ====
section
/-! DEFINITION. ACCEPT (42_accept.md). -/

namespace Sys2Proof.Machine

/-- ACCEPT(b), performed when in_ready is 1 (42_accept.md R77 to R80). A byte offered to a full window
under BACKPRESSURE is not taken, and nothing is done or counted (R78, log 7). -/
def execPush (b : Byte) (s : State) : Result :=
  if s.takesByte then
    if s.hasRoom then .next (s.appendByte b) else .next s.countDropped
  else .next s

end Sys2Proof.Machine
end

