-- ==== Sys2Proof/Machine/Control.lean ====
section
/-! DEFINITION. The host's other operations: CLEAR, SET_HANDLER and RESERVED (44_control.md). -/

namespace Sys2Proof.Machine

/-- CLEAR (44_control.md R95); cmd[2] is ignored (30_encoding.md R63). -/
def execClear (_x : Bool) (s : State) : Result := .next s.clearWindow

/-- SET_HANDLER(en) (44_control.md R96). -/
def execHandler (en : Bool) (s : State) : Result := .next (s.setHandler en)

/-- RESERVED, a no-op (44_control.md R97, 30_encoding.md R64). -/
def execReserved (_x : Bool) (s : State) : Result := .next s

end Sys2Proof.Machine
end

