-- ==== Sys2Proof/Machine/Frames.lean ====
section
/-! DEFINITION. The frame types: what FSV does with a validated frame of each (30_encoding.md R60, R61,
43_poll.md R87, 45_dispatch.md R100, R103, R105; log 9). POLL runs these on the candidate it has
removed from the window (43_poll.md R86, 20_memory.md R54). -/

namespace Sys2Proof.Machine

/-- PING, TYPE 0x01 (30_encoding.md R60). -/
def execPing (p : List Byte) (s : State) : Result := receiveFrame .ping p s

/-- PONG, TYPE 0x02 (30_encoding.md R60). -/
def execPong (p : List Byte) (s : State) : Result := receiveFrame .pong p s

/-- ACK, TYPE 0x03 (30_encoding.md R60). -/
def execAck (p : List Byte) (s : State) : Result := receiveFrame .ack p s

/-- NACK, TYPE 0x04 (30_encoding.md R60). -/
def execNack (p : List Byte) (s : State) : Result := receiveFrame .nack p s

/-- CMD_SET_MODE, TYPE 0x10 (30_encoding.md R60). -/
def execCmdSetMode (p : List Byte) (s : State) : Result := receiveFrame .cmdSetMode p s

/-- CMD_SET_PARAM, TYPE 0x11 (30_encoding.md R60). -/
def execCmdSetParam (p : List Byte) (s : State) : Result := receiveFrame .cmdSetParam p s

/-- CMD_START, TYPE 0x12 (30_encoding.md R60). -/
def execCmdStart (p : List Byte) (s : State) : Result := receiveFrame .cmdStart p s

/-- CMD_STOP, TYPE 0x13 (30_encoding.md R60). -/
def execCmdStop (p : List Byte) (s : State) : Result := receiveFrame .cmdStop p s

/-- CMD_RESET, TYPE 0x14 (30_encoding.md R60); FSV itself neither clears nor resets (R61). -/
def execCmdReset (p : List Byte) (s : State) : Result := receiveFrame .cmdReset p s

/-- CMD_READ_SENSOR, TYPE 0x15 (30_encoding.md R60). -/
def execCmdReadSensor (p : List Byte) (s : State) : Result := receiveFrame .cmdReadSensor p s

/-- CMD_SET_TENDONS, TYPE 0x16 (30_encoding.md R60). -/
def execCmdSetTendons (p : List Byte) (s : State) : Result := receiveFrame .cmdSetTendons p s

/-- CMD_SET_SPOOL, TYPE 0x17 (30_encoding.md R60). -/
def execCmdSetSpool (p : List Byte) (s : State) : Result := receiveFrame .cmdSetSpool p s

/-- STATUS_UPDATE, TYPE 0x20 (30_encoding.md R60). -/
def execStatusUpdate (p : List Byte) (s : State) : Result := receiveFrame .statusUpdate p s

/-- SENSOR_DATA, TYPE 0x21 (30_encoding.md R60). -/
def execSensorData (p : List Byte) (s : State) : Result := receiveFrame .sensorData p s

/-- ERROR_REPORT, TYPE 0x22 (30_encoding.md R60). -/
def execErrorReport (p : List Byte) (s : State) : Result := receiveFrame .errorReport p s

/-- DEBUG_MESSAGE, TYPE 0x23 (30_encoding.md R60). -/
def execDebugMessage (p : List Byte) (s : State) : Result := receiveFrame .debugMessage p s

/-- UNKNOWN: a TYPE outside the table is handled exactly like a known one (30_encoding.md R61,
45_dispatch.md R103). -/
def execUnknown (t : Byte) (p : List Byte) (s : State) : Result := receiveFrame (.unknown t) p s

/-- The meaning of a validated frame of a kind. -/
def runFrame (k : FrameKind) (p : List Byte) (s : State) : Result :=
  match k with
  | .ping => execPing p s
  | .pong => execPong p s
  | .ack => execAck p s
  | .nack => execNack p s
  | .cmdSetMode => execCmdSetMode p s
  | .cmdSetParam => execCmdSetParam p s
  | .cmdStart => execCmdStart p s
  | .cmdStop => execCmdStop p s
  | .cmdReset => execCmdReset p s
  | .cmdReadSensor => execCmdReadSensor p s
  | .cmdSetTendons => execCmdSetTendons p s
  | .cmdSetSpool => execCmdSetSpool p s
  | .statusUpdate => execStatusUpdate p s
  | .sensorData => execSensorData p s
  | .errorReport => execErrorReport p s
  | .debugMessage => execDebugMessage p s
  | .unknown t => execUnknown t p s

end Sys2Proof.Machine
end

