-- ==== Sys2Proof/Machine/Poll.lean ====
section
/-! DEFINITION. POLL (43_poll.md R81), in the steps the spec letters A to G. -/

namespace Sys2Proof.Machine

/-- Steps F and G on a candidate already removed from the window: a valid one runs as the frame
instruction its TYPE byte names, an invalid one is only counted (43_poll.md R87, R88). -/
def pollCandidate (c : List Byte) (s : State) : Result :=
  if checksumOK c then runFrame (.ofCode (typeByte c)) (payloadBytes c) s
  else .next (s.countInvalid.setResult .invalid)

/-- Steps C to G, on the state that step B leaves (43_poll.md R84 to R88). -/
def pollSynced (s : State) : Result :=
  if s.wcnt < MIN_FRAME then .next (s.setResult .deferResync)
  else if s.wcnt < s.declaredLength then .next (s.setResult .deferPartial)
  else pollCandidate s.candidate (s.dropFront s.declaredLength)

/-- POLL (43_poll.md R81 to R88); cmd[2] is ignored (30_encoding.md R63). -/
def execPoll (_x : Bool) (s : State) : Result :=
  if s.wcnt < MIN_FRAME then .next (s.setResult .deferShort)
  else pollSynced s.resynced

end Sys2Proof.Machine
end

