-- ==== Sys2Proof/Machine/Reset.lean ====
section
/-! DEFINITION. RESET (70_reset_and_hazards.md R120 to R122). -/

namespace Sys2Proof.Machine

/-- RESET (70_reset_and_hazards.md R120). -/
def execReset (s : State) : Result := .next s.applyReset

end Sys2Proof.Machine
end

