-- ==== Sys2Proof/Machine/Dispatch.lean ====
section
/-! DEFINITION. exec: one arm per constructor of Instr, each one call of that instruction's meaning. -/

namespace Sys2Proof.Machine

def exec (i : Instr) (s : State) : Host.Outcome State Fault Refusal :=
  match i with
  | .push b => Sys2Proof.Machine.execPush b s
  | .poll x => Sys2Proof.Machine.execPoll x s
  | .clear x => Sys2Proof.Machine.execClear x s
  | .handler en => Sys2Proof.Machine.execHandler en s
  | .reserved x => Sys2Proof.Machine.execReserved x s
  | .reset => Sys2Proof.Machine.execReset s
  | .ping p => Sys2Proof.Machine.execPing p s
  | .pong p => Sys2Proof.Machine.execPong p s
  | .ack p => Sys2Proof.Machine.execAck p s
  | .nack p => Sys2Proof.Machine.execNack p s
  | .cmdSetMode p => Sys2Proof.Machine.execCmdSetMode p s
  | .cmdSetParam p => Sys2Proof.Machine.execCmdSetParam p s
  | .cmdStart p => Sys2Proof.Machine.execCmdStart p s
  | .cmdStop p => Sys2Proof.Machine.execCmdStop p s
  | .cmdReset p => Sys2Proof.Machine.execCmdReset p s
  | .cmdReadSensor p => Sys2Proof.Machine.execCmdReadSensor p s
  | .cmdSetTendons p => Sys2Proof.Machine.execCmdSetTendons p s
  | .cmdSetSpool p => Sys2Proof.Machine.execCmdSetSpool p s
  | .statusUpdate p => Sys2Proof.Machine.execStatusUpdate p s
  | .sensorData p => Sys2Proof.Machine.execSensorData p s
  | .errorReport p => Sys2Proof.Machine.execErrorReport p s
  | .debugMessage p => Sys2Proof.Machine.execDebugMessage p s
  | .unknown t p => Sys2Proof.Machine.execUnknown t p s

end Sys2Proof.Machine
end

