-- ==== Sys2Proof/Machine/Fetch.lean ====
section
/-! DEFINITION. Which operation the pins present next (20_memory.md R48, R49, 70_reset_and_hazards.md
R121), and how an instruction is placed there. -/

namespace Sys2Proof.Machine

/-- What the pins present: nothing to perform, or an instruction; with the state whose schedule has
moved on. -/
inductive Fetched where
  | idle (s : State)
  | operation (i : Instr) (s : State)
  deriving DecidableEq, Repr

/-- What is left of a cycle once its byte has been offered: its command, if it has one (20_memory.md R49). -/
def PortCycle.afterByte (p : PortCycle) (rest : List PortCycle) : List PortCycle :=
  if p.cmdValid then { p with inValid := false } :: rest else rest

/-- The next operation of the total order. Reset overrides a byte and a command of its cycle
(70_reset_and_hazards.md R121, 92_eei_decisions.md D26); a byte comes before the command of its cycle
(20_memory.md R49); with nothing presented FSV takes no step (00_scope.md R19, log 6). -/
def fetch (s : State) : Fetched :=
  match s.ports with
  | [] => .idle s
  | p :: rest =>
    if p.rst then .operation .reset { s with ports := rest }
    else if p.inValid then .operation (.push p.inData) { s with ports := PortCycle.afterByte p rest }
    else if p.cmdValid then .operation (decodeCommand p.cmd) { s with ports := rest }
    else .idle { s with ports := rest }

/-- A cycle that presents a POLL (30_encoding.md R68: cmd = 0b000). -/
def pollCycle : PortCycle := { PortCycle.idle with cmdValid := true, cmd := 0b000#3 }

/-- The state with an encoded input where the next step takes it from: the word of a port stands in the
oldest cycle; a wire frame stands in the window, as its only content, with a POLL in the oldest cycle
(log 5, log 9). -/
def State.placeWord (s : State) (w : PortWord) : State :=
  match w with
  | .inPort v b => { s with ports := (PortWord.inPort v b).cycles ++ s.ports }
  | .command c => { s with ports := (PortWord.command c).cycles ++ s.ports }
  | .rstPin a => { s with ports := (PortWord.rstPin a).cycles ++ s.ports }
  | .wire bs => { s with win := Memory.writeBytes [] 0 bs, wcnt := bs.length, ports := pollCycle :: s.ports }

end Sys2Proof.Machine
end

