-- ==== Sys2Proof/Machine/Step.lean ====
section
/-! DEFINITION. One step: the next operation that the pins present, performed whole (00_scope.md R6,
20_memory.md R48). -/

namespace Sys2Proof.Machine

/-- One step. A configuration with RX_CAP < MIN_FRAME is refused (00_scope.md R8, log 11). -/
def step (s : State) : Host.Outcome State Fault Refusal :=
  if s.cfg.ok then
    match fetch s with
    | .idle s' => .next s'
    | .operation i s' => exec i s'
  else .refused .rxCapBelowMinFrame

/-- The state with a table row's instruction where step takes its next one from. -/
def State.withFetchWord (s : State) (nbits w : Nat) : State := s.placeWord (tableWord nbits w)

end Sys2Proof.Machine
end

