-- ==== Sys2Proof/Machine/Assembler.lean ====
section
/-! DEFINITION. The text of operation programs (30_encoding.md R68, R69; logs 20, 21): one operation a line,
`;` starts a comment, numbers are `0xNN` or decimal. -/

namespace Sys2Proof.Machine

/-- A finished word, if any, before the words that follow. -/
def flushWord (cur : List Char) (rest : List (List Char)) : List (List Char) :=
  if cur.isEmpty then rest else cur :: rest

/-- The words of a line; a bracket is a word of its own, and a comment ends the line. -/
def lexLine (cs cur : List Char) : List (List Char) :=
  match cs with
  | [] => flushWord cur []
  | c :: r =>
    if c = ';' then flushWord cur []
    else if c = ' ' || c = '\t' then flushWord cur (lexLine r [])
    else if c = '[' || c = ']' then flushWord cur ([c] :: lexLine r [])
    else lexLine r (cur ++ [c])

/-- A digit's value, if it is one in the base. -/
def digitValue (base : Nat) (c : Char) : Option Nat :=
  let n := c.toNat
  let v :=
    if 48 ≤ n ∧ n ≤ 57 then n - 48
    else if 65 ≤ n ∧ n ≤ 70 then n - 55
    else if 97 ≤ n ∧ n ≤ 102 then n - 87
    else base
  if v < base then some v else none

/-- Digits in a base, the most significant first. -/
def digitsValue (base acc : Nat) (cs : List Char) : Option Nat :=
  match cs with
  | [] => some acc
  | c :: r => (digitValue base c).bind fun d => digitsValue base (acc * base + d) r

/-- A number, `0xNN` or decimal (30_encoding.md R68). DESIGN CHOICE (log 21): a number without `0x` is
decimal, and bare hexadecimal is refused, though the programs of 95_test_vectors.md write bytes so. -/
def parseNumber (w : List Char) : Option Nat :=
  match w with
  | [] => none
  | '0' :: 'x' :: [] => none
  | '0' :: 'x' :: r => digitsValue 16 0 r
  | c :: r => digitsValue 10 0 (c :: r)

/-- The operand of `reserved <a>`, a in {0, 1} (30_encoding.md R68). DESIGN CHOICE (log 20): it may be
spelled like any number. -/
def parseBit (w : List Char) : Option Bool :=
  match parseNumber w with
  | some 0 => some false
  | some 1 => some true
  | _ => none

/-- A byte operand. -/
def parseByte (w : List Char) : Option Byte :=
  (parseNumber w).bind fun n => if n < 256 then some (BitVec.ofNat 8 n) else none

/-- Byte operands, in order. -/
def parseBytes (ws : List (List Char)) : Option (List Byte) :=
  match ws with
  | [] => some []
  | w :: r => (parseByte w).bind fun b => (parseBytes r).map fun bs => b :: bs

/-- The type names of 30_encoding.md R60. -/
def typeNames : List (String × FrameKind) :=
  [("PING", .ping), ("PONG", .pong), ("ACK", .ack), ("NACK", .nack)] ++
  [("CMD_SET_MODE", .cmdSetMode), ("CMD_SET_PARAM", .cmdSetParam), ("CMD_START", .cmdStart), ("CMD_STOP", .cmdStop)] ++
  [("CMD_RESET", .cmdReset), ("CMD_READ_SENSOR", .cmdReadSensor), ("CMD_SET_TENDONS", .cmdSetTendons),
    ("CMD_SET_SPOOL", .cmdSetSpool)] ++
  [("STATUS_UPDATE", .statusUpdate), ("SENSOR_DATA", .sensorData), ("ERROR_REPORT", .errorReport),
    ("DEBUG_MESSAGE", .debugMessage)]

/-- A frame type: a number or a type name (30_encoding.md R69). -/
def parseType (w : List Char) : Option Byte :=
  match typeNames.find? fun e => e.1.toList == w with
  | some (_, k) => some k.code
  | none => parseByte w

/-- The words between `[` and `]` at the end of a line. -/
def bracketed (ws : List (List Char)) : Option (List (List Char)) :=
  match ws with
  | ['['] :: r => if r.getLast? = some [']'] then some r.dropLast else none
  | _ => none

/-- A line's words: none where it is no form of 30_encoding.md R68 or R69, some none for a blank line. -/
def parseWords (ws : List (List Char)) : Option (Option Line) :=
  match ws with
  | [] => some none
  | w :: args =>
    if w = "push".toList then
      if args.isEmpty then none else (parseBytes args).map fun bs => some (.push bs)
    else if w = "poll".toList then
      match args with
      | [] => some (some (.poll 1))
      | [n] => (parseNumber n).map fun n => some (.poll n)
      | _ => none
    else if w = "clear".toList then
      if args.isEmpty then some (some .clear) else none
    else if w = "handler".toList then
      if args = ["on".toList] then some (some (.handler true))
      else if args = ["off".toList] then some (some (.handler false))
      else none
    else if w = "reserved".toList then
      match args with
      | [a] => (parseBit a).map fun a => some (.reserved a)
      | _ => none
    else if w = "reset".toList then
      if args.isEmpty then some (some .reset) else none
    else if w = "frame".toList then
      match args with
      | t :: ps => (parseType t).bind fun t => (bracketed ps).bind fun ps => (parseBytes ps).map fun p => some (.frame t p)
      | [] => none
    else none

/-- One line of a program. -/
def parseLine (cs : List Char) : Option (Option Line) := parseWords (lexLine cs [])

/-- The operations of a program's lines, in order; none where a line is refused. -/
def assemble (lines : List (List Char)) : Option (List Instr) :=
  match lines with
  | [] => some []
  | l :: r =>
    (parseLine l).bind fun o =>
      match o with
      | none => assemble r
      | some line => (line.expand).bind fun is => (assemble r).map fun js => is ++ js

end Sys2Proof.Machine
end

