-- ==== Sys2Proof/Machine/Flags.lean ====
section
/-! DEFINITION. The status outputs (10_state.md R33, 42_accept.md R78, 30_encoding.md R66). FSV has no
condition flags (10_state.md R23); LAST_RESULT and these functions of the state are its status.
Reading one is no operation and changes nothing (20_memory.md R47, 44_control.md R98). -/

namespace Sys2Proof.Machine

/-- LAST_RESULT's 3-bit code (10_state.md R31). -/
def LastResult.code (r : LastResult) : BitVec 3 :=
  match r with
  | .none => 0
  | .deferShort => 1
  | .deferResync => 2
  | .deferPartial => 3
  | .validDispatched => 4
  | .validUnhandled => 5
  | .invalid => 6

/-- Whether the reset input is asserted in the cycle now at the pins (30_encoding.md R67). -/
def State.rstAsserted (s : State) : Bool :=
  match s.ports with
  | [] => false
  | p :: _ => p.rst

/-- `in_ready` (42_accept.md R78). -/
def State.inReady (s : State) : Bool := !s.rstAsserted && s.takesByte

/-- The outputs of 10_state.md R33, but for the 255 bytes `dsp_payload[i]`. -/
structure Outputs where
  winCount : Nat
  winFull : Bool
  inReady : Bool
  rxFrames : Nat
  rxInvalid : Nat
  rxDropped : Nat
  handlerEn : Bool
  lastResult : BitVec 3
  dspType : Byte
  dspLen : Byte
  dspClass : BitVec 2
  deriving DecidableEq, Repr

/-- What the host reads (10_state.md R33). -/
def State.outputs (s : State) : Outputs where
  winCount := s.wcnt
  winFull := decide (s.wcnt = s.cfg.rxCap)
  inReady := s.inReady
  rxFrames := s.rxFrames
  rxInvalid := s.rxInvalid
  rxDropped := s.rxDropped
  handlerEn := s.handlerEn
  lastResult := s.lastResult.code
  dspType := s.dspType
  dspLen := s.dspLen
  dspClass := (classOf s.dspType).code

/-- `dsp_payload[i]`, i in 0..254 (10_state.md R33, R39). -/
def State.dspPayloadOut (s : State) (i : Fin 255) : Byte := s.dspPayload.read i

/-- `dsp_payload[0..dsp_len)`, the part that belongs to the frame (30_encoding.md R66). -/
def State.dspFrame (s : State) : List Byte := s.dspPayload.prefixBytes s.dspLen.toNat

/-- The `dsp_valid` pulse of the operation that led from one state to the next (30_encoding.md R66,
10_state.md R33): it gave an event. -/
def dspValid (before after : State) : Bool := decide (before.events.length < after.events.length)

end Sys2Proof.Machine
end

