-- ==== Sys2Proof/Safety.lean ====
section
/-! DEFINITION. The words claims are stated in: a safe answer, the invariant, runs of operations, the
part of the state that can be observed, and the ring buffer that 20_memory.md R46 admits. -/

namespace Sys2Proof

/-- The operation is a push or a POLL: delivery of a stream with polls in between. -/
def Instr.isDelivery (i : Instr) : Bool :=
  match i with
  | .push _ => true
  | .poll _ => true
  | _ => false

/-- The operation is CLEAR or RESET, the two that cancel buffered bytes (44_control.md R99). -/
def Instr.isCancel (i : Instr) : Bool :=
  match i with
  | .clear _ => true
  | .reset => true
  | _ => false

end Sys2Proof

namespace Sys2Proof.Machine

/-- An answer that goes on: FSV never stops (60_exceptions.md R107). -/
abbrev Safe (r : Result) : Prop := ∃ s, r = .next s

/-- What holds of every state of an FSV: the parameters are legal (00_scope.md R8), WCNT is in its range
(10_state.md R25), the counters fit their width (R34), RX_DROPPED stays 0 under BACKPRESSURE (R30), the
two byte spaces are canonical and inside their index ranges (20_memory.md R40), and every event's length
is its payload's (45_dispatch.md R100). -/
structure State.Inv (s : State) : Prop where
  cfgOk : s.cfg.ok = true
  wcntLe : s.wcnt ≤ s.cfg.rxCap
  winWf : s.win.wf = true
  winBelow : s.win.below s.cfg.rxCap = true
  dspWf : s.dspPayload.wf = true
  dspBelow : s.dspPayload.below 255 = true
  framesFit : s.rxFrames < 2 ^ s.cfg.cntW
  invalidFit : s.rxInvalid < 2 ^ s.cfg.cntW
  droppedFit : s.rxDropped < 2 ^ s.cfg.cntW
  droppedZero : s.cfg.ovfPolicy = .backpressure → s.rxDropped = 0
  eventsLen : ∀ e ∈ s.events, e.payload.length = e.len.toNat

/-- Operations one after the other, in one total order (20_memory.md R48). -/
def runOps (ops : List Instr) (s : State) : Result :=
  match ops with
  | [] => .next s
  | i :: r =>
    match exec i s with
    | .next t => runOps r t
    | .fault f => .fault f
    | .refused f => .refused f

/-- The bytes that a list of operations offers on the input port, in order. -/
def pushedBytes (ops : List Instr) : List Byte :=
  ops.filterMap fun i => match i with
    | .push b => some b
    | _ => none

/-- No byte is dropped or refused: each one finds room (43_poll.md R94: "with no byte dropped"). -/
def noByteLost (ops : List Instr) (s : State) : Bool :=
  match ops with
  | [] => true
  | i :: r =>
    (match i with
      | .push _ => s.hasRoom
      | _ => true) &&
    (match exec i s with
      | .next t => noByteLost r t
      | .fault _ => false
      | .refused _ => false)

/-- One of the three outcomes with which a POLL defers (10_state.md R31). -/
def LastResult.isDefer (r : LastResult) : Bool :=
  match r with
  | .deferShort | .deferResync | .deferPartial => true
  | .none | .validDispatched | .validUnhandled | .invalid => false

/-- The same but for window bytes at indices WCNT and above, which no rule reads (10_state.md R26). -/
def State.SameVisible (s t : State) : Prop :=
  { s with win := [] } = { t with win := [] } ∧ s.bytes = t.bytes

/-- A complete candidate: START, then as many bytes as LENGTH declares (43_poll.md R86). -/
abbrev IsCandidate (c : List Byte) : Prop :=
  MIN_FRAME ≤ c.length ∧ byteAt c 0 = START ∧ c.length = frameLength (lengthByte c)

/-- A window implemented as a ring (20_memory.md R46). -/
structure RingWindow where
  cells : Memory
  head : Nat
  count : Nat
  deriving DecidableEq, Repr

/-- The sequence a ring of `cap` bytes presents. -/
def RingWindow.bytes (cap : Nat) (r : RingWindow) : List Byte :=
  (List.range r.count).map fun i => r.cells.read ((r.head + i) % cap)

/-- A byte appended behind the others. -/
def RingWindow.push (cap : Nat) (r : RingWindow) (b : Byte) : RingWindow :=
  { r with cells := r.cells.write ((r.head + r.count) % cap) b, count := r.count + 1 }

/-- Bytes removed from the front: only the head moves. -/
def RingWindow.drop (cap : Nat) (r : RingWindow) (n : Nat) : RingWindow :=
  { r with head := (r.head + n) % cap, count := r.count - n }

/-- The ring presents the window's sequence. -/
def RingWindow.Presents (r : RingWindow) (s : State) : Prop :=
  r.count = s.wcnt ∧ r.count ≤ s.cfg.rxCap ∧ r.bytes s.cfg.rxCap = s.bytes

end Sys2Proof.Machine
end

