-- ==== Sys2Proof/Certificates/Slice0/Obligations.lean ====
section
/-! DEFINITION. The statements for the provers, one definition each, named after what they state. -/

open Sys2Proof Sys2Proof.Machine

/-! ## Checksum and frames (41_checksum.md) -/

/-- R71: the XOR fold, identity 0x00, order-independent, and a byte that appears an even number of times
cancels out. -/
def Obligations.ChecksumIsOrderFreeXorFold : Prop :=
  checksum [] = 0x00#8 ∧
  (∀ (s : List Byte) (b : Byte), checksum (s ++ [b]) = checksum s ^^^ b) ∧
  (∀ s t : List Byte, s.Perm t → checksum s = checksum t) ∧
  (∀ (s : List Byte) (b : Byte), s.count b % 2 = 0 → checksum s = checksum (s.filter (· != b)))

/-- R72, the four laws. -/
def Obligations.ChecksumAlgebraicLaws : Prop :=
  (∀ s t : List Byte, checksum (s ++ t) = checksum s ^^^ checksum t) ∧
  (∀ s t : List Byte, s.Perm t → checksum s = checksum t) ∧
  (∀ s : List Byte, checksum (s ++ [checksum s]) = 0x00#8) ∧
  (∀ (s : List Byte) (b : Byte), checksum (s ++ [b, b]) = checksum s)

/-- R73: on a candidate of START, TYPE, LENGTH, PAYLOAD and CHECKSUM the test compares CHECKSUM with the
fold over TYPE, LENGTH and PAYLOAD, START excluded; equivalently the fold over all but START is 0x00. -/
def Obligations.ValidityTestComparesChecksumByte : Prop :=
  ∀ (t l ck : Byte) (p : List Byte), p.length = l.toNat →
    let c := [START, t, l] ++ p ++ [ck]
    (checksumOK c = true ↔ t ^^^ l ^^^ checksum p = ck) ∧
    (checksumOK c = true ↔ checksum (c.drop 1) = 0x00#8)

/-- R76: an oversized payload is refused; otherwise the builder gives START, TYPE, LENGTH, PAYLOAD,
CHECKSUM, and that is well formed. -/
def Obligations.FrameBuilderMakesWellFormedFrames : Prop :=
  ∀ (t : Byte) (p : List Byte),
    (255 < p.length → buildFrame t p = none) ∧
    (p.length ≤ 255 →
      buildFrame t p = some
        ([0xAA#8, t, BitVec.ofNat 8 p.length] ++ p ++ [t ^^^ BitVec.ofNat 8 p.length ^^^ checksum p]) ∧
      wireWellFormed (frameBytes t p) = true)

/-- R74 with R76: the well-formed byte sequences are exactly what the builder makes. -/
def Obligations.WellFormedSequencesAreBuiltFrames : Prop :=
  ∀ s : List Byte, wireWellFormed s = true ↔ ∃ (t : Byte) (p : List Byte), buildFrame t p = some s

/-- R75: a valid candidate, XORed with deltas that leave START and LENGTH alone, fails exactly when the
deltas' XOR is not 0x00; so one changed byte is always detected, and two bytes swapped never are. -/
def Obligations.ChecksumDetectsExactlyNonCancellingDeltas : Prop :=
  ∀ c : List Byte, IsCandidate c → checksumOK c = true →
    (∀ d : List Byte, d.length = c.length → byteAt d 0 = 0x00#8 → byteAt d 2 = 0x00#8 →
      (checksumOK (List.zipWith (· ^^^ ·) c d) = false ↔ checksum d ≠ 0x00#8)) ∧
    (∀ (i : Nat) (b : Byte), i < c.length → i ≠ 0 → i ≠ 2 → b ≠ byteAt c i → checksumOK (c.set i b) = false) ∧
    (∀ i j : Nat, i < c.length → j < c.length → i ≠ 0 → i ≠ 2 → j ≠ 0 → j ≠ 2 →
      checksumOK ((c.set i (byteAt c j)).set j (byteAt c i)) = true)

/-! ## Encodings (30_encoding.md) -/

/-- Decoding an encoded instruction gives it back, for every well-formed instruction: every operation
with every operand, and every frame type with every payload of 0 to 255 bytes. -/
def Obligations.DecodeOfEncodeIsIdentity : Prop :=
  ∀ i : Instr, i.wellFormed = true → decode (encode i) = .ok i

/-- The other direction: an input the decoder accepts is the encoding of the one well-formed instruction
it answers, so each word has one meaning. -/
def Obligations.EncodeOfDecodeIsIdentity : Prop :=
  ∀ (w : PortWord) (i : Instr), decode w = .ok i → i.wellFormed = true ∧ encode i = w

/-- R70: every input byte and every command word decodes, and the only rejection of a complete candidate
is the checksum test. -/
def Obligations.DecoderRejectsOnlyBadChecksums : Prop :=
  (∀ b : Byte, decode (.inPort true b) = .ok (.push b)) ∧
  (∀ w : BitVec 3, ∃ i, decode (.command w) = .ok i) ∧
  (∀ c : List Byte, IsCandidate c → checksumOK c = true →
    ∃ i, decode (.wire c) = .ok i ∧ i = .ofFrame (.ofCode (typeByte c)) (payloadBytes c)) ∧
  (∀ c : List Byte, IsCandidate c → checksumOK c = false → decode (.wire c) = .error .checksumMismatch)

/-- R63: cmd[1:0] selects the operation and cmd[2] is its argument. -/
def Obligations.CommandWordsSelectOperations : Prop :=
  ∀ a : Bool,
    decode (.command (BitVec.ofBool a ++ 0b00#2)) = .ok (.poll a) ∧
    decode (.command (BitVec.ofBool a ++ 0b01#2)) = .ok (.clear a) ∧
    decode (.command (BitVec.ofBool a ++ 0b10#2)) = .ok (.handler a) ∧
    decode (.command (BitVec.ofBool a ++ 0b11#2)) = .ok (.reserved a)

/-- Words written out from R55, R60, R65, R67 and R68 decode to the instructions they stand for. -/
def Obligations.SpecWordsDecode : Prop :=
  decode (.inPort true 0x55#8) = .ok (.push 0x55#8) ∧
  decode (.command 0b000#3) = .ok (.poll false) ∧
  decode (.command 0b001#3) = .ok (.clear false) ∧
  decode (.command 0b110#3) = .ok (.handler true) ∧
  decode (.command 0b010#3) = .ok (.handler false) ∧
  decode (.command 0b111#3) = .ok (.reserved true) ∧
  decode (.rstPin true) = .ok .reset ∧
  decode (.wire [0xAA#8, 0x01#8, 0x00#8, 0x01#8]) = .ok (.ping []) ∧
  decode (.wire [0xAA#8, 0x03#8, 0x01#8, 0x05#8, 0x07#8]) = .ok (.ack [0x05#8]) ∧
  decode (.wire [0xAA#8, 0x7F#8, 0x02#8, 0x01#8, 0x02#8, 0x7E#8]) = .ok (.unknown 0x7F#8 [0x01#8, 0x02#8])

/-- R104 and R62: the class of a TYPE byte by its three ranges, and the class of a kind of R60 by its
direction. -/
def Obligations.TypeClassByRangeAndDirection : Prop :=
  (∀ t : Byte, (classOf t).code =
    if 0x01#8 ≤ t ∧ t ≤ 0x04#8 then 1
    else if 0x10#8 ≤ t ∧ t ≤ 0x17#8 then 2
    else if 0x20#8 ≤ t ∧ t ≤ 0x23#8 then 3
    else 0) ∧
  (∀ t : Byte, classOf t = Direction.typeClass (FrameKind.ofCode t).direction)

/-- R69: `push` of a list, `frame` and `poll n` expand to their operations; an oversized `frame` is
refused. -/
def Obligations.PseudoOperationsExpand : Prop :=
  (∀ bs : List Byte, (Line.push bs).expand = some (bs.map Instr.push)) ∧
  (∀ (t : Byte) (p : List Byte), p.length ≤ 255 →
    (Line.frame t p).expand = some ((frameBytes t p).map Instr.push)) ∧
  (∀ (t : Byte) (p : List Byte), 255 < p.length → (Line.frame t p).expand = none) ∧
  (∀ n : Nat, (Line.poll n).expand = some (List.replicate n (.poll false)))

/-! ## Reset (70_reset_and_hazards.md, 10_state.md R37) -/

/-- R120: RESET's whole effect; DSP_PAYLOAD reads 0x00 everywhere. What RESET leaves alone (WIN, which
R24 says it does not write, the configuration, the schedule and the events) is the model's frame
(log 5, log 8). -/
def Obligations.ResetOperationLeavesResetValues : Prop :=
  ∀ s : State, ∃ d : Memory,
    exec .reset s = .next
      { s with
        wcnt := 0, rxFrames := 0, rxInvalid := 0, rxDropped := 0, handlerEn := false,
        lastResult := .none, dspType := 0x00#8, dspLen := 0x00#8, dspPayload := d } ∧
    ∀ i, i < 255 → d.read i = 0x00#8

/-- R37: the reset values of S1 to S9. The default parameters are R8 to R10's. -/
def Obligations.ResetStateHoldsTableValues : Prop :=
  State.reset.wcnt = 0 ∧ State.reset.rxFrames = 0 ∧ State.reset.rxInvalid = 0 ∧ State.reset.rxDropped = 0 ∧
  State.reset.handlerEn = false ∧ State.reset.lastResult.code = 0 ∧ State.reset.dspType = 0x00#8 ∧
  State.reset.dspLen = 0x00#8 ∧ (∀ i : Fin 255, State.reset.dspPayloadOut i = 0x00#8) ∧
  State.reset.cfg.rxCap = 259 ∧ State.reset.cfg.ovfPolicy = .drop ∧ State.reset.cfg.cntW = 32

/-- The invariant holds right after reset, for every legal configuration. -/
def Obligations.InvariantHoldsAtReset : Prop :=
  State.reset.Inv ∧ ∀ c : Config, c.ok = true → (State.init c).Inv

/-- Every step keeps the invariant, from every state that has it. -/
def Obligations.EveryStepKeepsInvariant : Prop :=
  ∀ s s' : State, s.Inv → step s = .next s' → s'.Inv

/-! ## ACCEPT (42_accept.md) -/

/-- R77: ACCEPT in its three cases, each with its whole effect: the byte is stored at WCNT, or counted as
dropped, or (BACKPRESSURE, R78) not taken at all. -/
def Obligations.AcceptStoresOrDropsTheByte : Prop :=
  ∀ (b : Byte) (s : State),
    (s.wcnt < s.cfg.rxCap → ∃ m : Memory,
      exec (.push b) s = .next { s with win := m, wcnt := s.wcnt + 1 } ∧
      m.read s.wcnt = b ∧ ∀ a, a ≠ s.wcnt → m.read a = s.win.read a) ∧
    (s.cfg.rxCap ≤ s.wcnt → s.cfg.ovfPolicy = .drop →
      exec (.push b) s = .next { s with rxDropped := (s.rxDropped + 1) % 2 ^ s.cfg.cntW }) ∧
    (s.cfg.rxCap ≤ s.wcnt → s.cfg.ovfPolicy = .backpressure → exec (.push b) s = .next s)

/-- R78: in_ready in its three cases. -/
def Obligations.InReadyFollowsPolicyAndReset : Prop :=
  ∀ s : State,
    (s.rstAsserted = true → s.inReady = false) ∧
    (s.rstAsserted = false → s.cfg.ovfPolicy = .drop → s.inReady = true) ∧
    (s.rstAsserted = false → s.cfg.ovfPolicy = .backpressure → (s.inReady = true ↔ s.wcnt < s.cfg.rxCap))

/-- R80: ACCEPT only appends behind the buffered bytes, or leaves them; it counts, dispatches and reports
nothing. -/
def Obligations.AcceptOnlyAppendsAndProcessesNothing : Prop :=
  ∀ (b : Byte) (s : State), ∃ t, exec (.push b) s = .next t ∧
    (t.bytes = s.bytes ++ [b] ∨ t.bytes = s.bytes) ∧
    t.rxFrames = s.rxFrames ∧ t.rxInvalid = s.rxInvalid ∧ t.lastResult = s.lastResult ∧
    t.events = s.events ∧ t.handlerEn = s.handlerEn ∧
    t.dspType = s.dspType ∧ t.dspLen = s.dspLen ∧ t.dspPayload = s.dspPayload

/-! ## The window (20_memory.md) -/

/-- R46: drop_front(n). -/
def Obligations.DropFrontCompactsTheWindow : Prop :=
  ∀ (s : State) (n : Nat), n ≤ s.wcnt →
    (s.dropFront n).wcnt = s.wcnt - n ∧
    (∀ i, i < s.wcnt - n → (s.dropFront n).win.read i = s.win.read (i + n)) ∧
    (s.dropFront n).bytes = s.bytes.drop n

/-- R46: a ring buffer that presents the window's sequence goes on presenting it, through an append and
through a removal from the front. -/
def Obligations.RingBufferPresentsTheSameSequence : Prop :=
  ∀ (r : RingWindow) (s : State), r.Presents s →
    (∀ b : Byte, s.wcnt < s.cfg.rxCap → (r.push s.cfg.rxCap b).Presents (s.appendByte b)) ∧
    (∀ n : Nat, n ≤ s.wcnt → (r.drop s.cfg.rxCap n).Presents (s.dropFront n))

/-- R26: window bytes at indices WCNT and above cannot be observed: two states that differ only there
give the same outputs, and every instruction takes them to two such states or refuses both. -/
def Obligations.BytesPastWcntAreUnobservable : Prop :=
  ∀ (i : Instr) (s t : State), s.SameVisible t →
    s.outputs = t.outputs ∧
    ((∃ s' t', exec i s = .next s' ∧ exec i t = .next t' ∧ s'.SameVisible t') ∨
      (∃ r, exec i s = .refused r ∧ exec i t = .refused r))

/-! ## POLL (43_poll.md) -/

/-- R82: with WCNT < 4, POLL writes LAST_RESULT and nothing else. -/
def Obligations.PollDefersWhenShort : Prop :=
  ∀ (x : Bool) (s : State), s.wcnt < 4 → exec (.poll x) s = .next { s with lastResult := .deferShort }

/-- R83, R84: the bytes before the first START go; with fewer than 4 left, the rest stays and the
outcome is DEFER_RESYNC; nothing else changes. -/
def Obligations.PollDiscardsNoiseThenDefers : Prop :=
  ∀ (x : Bool) (s : State) (noise rest : List Byte),
    4 ≤ s.wcnt → s.bytes = noise ++ rest → START ∉ noise → (rest = [] ∨ byteAt rest 0 = START) → rest.length < 4 →
    0 < noise.length ∧
    ∃ m : Memory,
      exec (.poll x) s = .next { s with win := m, wcnt := rest.length, lastResult := .deferResync } ∧
      m.prefixBytes rest.length = rest

/-- R85: a partial frame stays at the front, the discard before it stands, and nothing else changes. -/
def Obligations.PollDefersOnPartialFrame : Prop :=
  ∀ (x : Bool) (s : State) (noise rest : List Byte),
    s.bytes = noise ++ rest → START ∉ noise → byteAt rest 0 = START → 4 ≤ rest.length →
    rest.length < 4 + (lengthByte rest).toNat →
    ∃ m : Memory,
      exec (.poll x) s = .next { s with win := m, wcnt := rest.length, lastResult := .deferPartial } ∧
      m.prefixBytes rest.length = rest

/-- R87 with a sink: the frame leaves the window, is counted, fills the DSP registers (the bytes past its
length stay) and gives exactly one event; nothing else changes. It holds for every TYPE byte. -/
def Obligations.PollDispatchesValidFrame : Prop :=
  ∀ (x : Bool) (s : State) (noise tail p : List Byte) (t : Byte),
    s.bytes = noise ++ frameBytes t p ++ tail → START ∉ noise → p.length ≤ 255 → s.handlerEn = true →
    ∃ m d : Memory,
      exec (.poll x) s = .next
        { s with
          win := m, wcnt := tail.length, rxFrames := (s.rxFrames + 1) % 2 ^ s.cfg.cntW,
          lastResult := .validDispatched, dspType := t, dspLen := BitVec.ofNat 8 p.length, dspPayload := d,
          events := s.events ++ [⟨t, BitVec.ofNat 8 p.length, p⟩] } ∧
      m.prefixBytes tail.length = tail ∧
      d.prefixBytes p.length = p ∧
      ∀ i, p.length ≤ i → d.read i = s.dspPayload.read i

/-- R87 and R105 without a sink: the frame leaves the window and is counted; no event, the DSP registers
stay. -/
def Obligations.PollCountsUnhandledFrame : Prop :=
  ∀ (x : Bool) (s : State) (noise tail p : List Byte) (t : Byte),
    s.bytes = noise ++ frameBytes t p ++ tail → START ∉ noise → p.length ≤ 255 → s.handlerEn = false →
    ∃ m : Memory,
      exec (.poll x) s = .next
        { s with
          win := m, wcnt := tail.length, rxFrames := (s.rxFrames + 1) % 2 ^ s.cfg.cntW,
          lastResult := .validUnhandled } ∧
      m.prefixBytes tail.length = tail

/-- R88 with R86: a candidate that fails is removed whole and counted invalid; nothing else changes. -/
def Obligations.PollCountsInvalidCandidate : Prop :=
  ∀ (x : Bool) (s : State) (noise c tail : List Byte),
    s.bytes = noise ++ c ++ tail → START ∉ noise → IsCandidate c → checksumOK c = false →
    ∃ m : Memory,
      exec (.poll x) s = .next
        { s with
          win := m, wcnt := tail.length, rxInvalid := (s.rxInvalid + 1) % 2 ^ s.cfg.cntW,
          lastResult := .invalid } ∧
      m.prefixBytes tail.length = tail

/-- R111: the order in which the outcomes are tried, from any state. -/
def Obligations.PollOutcomePriority : Prop :=
  ∀ (x : Bool) (s : State), ∃ t, exec (.poll x) s = .next t ∧
    let w := s.bytes.dropWhile (· != START)
    t.lastResult =
      if s.wcnt < 4 then .deferShort
      else if w.length < 4 then .deferResync
      else if w.length < 4 + (lengthByte w).toNat then .deferPartial
      else if checksumOK (w.take (4 + (lengthByte w).toNat)) then
        (if s.handlerEn then .validDispatched else .validUnhandled)
      else .invalid

/-- POLL fetches a frame from the window and runs it: when the decoder reads instruction i from the
resynchronised window, POLL is exec of i on the state from which the frame has been removed (R54, R86,
R87). The frame rows' meaning as step F of POLL is log 9. -/
def Obligations.PollRunsTheDecodedFrame : Prop :=
  ∀ (x : Bool) (s : State) (i : Instr) (rest : List Byte),
    4 ≤ s.wcnt → decodeFrame (s.bytes.dropWhile (· != START)) = .ok (i, rest) →
    i.wellFormed = true ∧
    ∃ m : Memory, m.prefixBytes rest.length = rest ∧
      exec (.poll x) s = exec i { s with win := m, wcnt := rest.length }

/-- R89: one POLL counts at most one candidate in the two counters together and gives at most one event. -/
def Obligations.AtMostOneFramePerPoll : Prop :=
  ∀ (x : Bool) (s : State), ∃ t, exec (.poll x) s = .next t ∧
    ((t.rxFrames = s.rxFrames ∧ t.rxInvalid = s.rxInvalid ∧ t.events = s.events) ∨
     (t.rxFrames = (s.rxFrames + 1) % 2 ^ s.cfg.cntW ∧ t.rxInvalid = s.rxInvalid ∧
       (t.events = s.events ∨ ∃ e, t.events = s.events ++ [e])) ∨
     (t.rxFrames = s.rxFrames ∧ t.rxInvalid = (s.rxInvalid + 1) % 2 ^ s.cfg.cntW ∧ t.events = s.events))

/-- R90, first part: what each outcome says the POLL removed, always from the front. -/
def Obligations.PollRemovesBytesOrProvesNoFrame : Prop :=
  ∀ (x : Bool) (s : State), ∃ t, exec (.poll x) s = .next t ∧
    (∃ k, t.bytes = s.bytes.drop k) ∧
    (t.lastResult = .deferShort → s.wcnt < 4 ∧ t.bytes = s.bytes) ∧
    (t.lastResult = .deferResync → t.wcnt < s.wcnt ∧ t.wcnt < 4) ∧
    (t.lastResult = .deferPartial →
      byteAt t.bytes 0 = START ∧ 4 ≤ t.wcnt ∧ t.wcnt < 4 + (lengthByte t.bytes).toNat) ∧
    (t.lastResult.isDefer = false → t.wcnt + 4 ≤ s.wcnt)

/-- R90, second part: WCNT POLLs with no byte between them reach a window that later POLLs leave alone;
it is empty, or holds at most three bytes, or holds a partial frame. -/
def Obligations.PollsReachAFixedPoint : Prop :=
  ∀ s : State, ∃ t, runOps (List.replicate s.wcnt (.poll false)) s = .next t ∧
    (∀ n : Nat, ∃ u, runOps (List.replicate n (.poll false)) t = .next u ∧ u.bytes = t.bytes) ∧
    (t.wcnt ≤ 3 ∨ (byteAt t.bytes 0 = START ∧ t.wcnt < 4 + (lengthByte t.bytes).toNat))

/-- R91: with RX_CAP >= 259, a POLL on a full window removes at least one byte. -/
def Obligations.FullWindowAlwaysProgresses : Prop :=
  ∀ (x : Bool) (s : State), 259 ≤ s.cfg.rxCap → s.wcnt = s.cfg.rxCap →
    ∃ t, exec (.poll x) s = .next t ∧ t.wcnt < s.wcnt

/-- R92: a candidate longer than the window stalls FSV: through any operations but CLEAR and RESET the
window, the two frame counters, the DSP registers and the events stay, and every POLL answers
DEFER_PARTIAL. -/
def Obligations.OversizedFrameStallsUntilClear : Prop :=
  ∀ (ops : List Instr) (s : State),
    4 ≤ s.cfg.rxCap → s.wcnt = s.cfg.rxCap → byteAt s.bytes 0 = START →
    s.cfg.rxCap < 4 + (lengthByte s.bytes).toNat →
    (∀ i ∈ ops, i.isOperation = true ∧ i.isCancel = false) →
    ∃ t, runOps ops s = .next t ∧ t.bytes = s.bytes ∧ t.wcnt = s.wcnt ∧ t.cfg = s.cfg ∧
      t.rxFrames = s.rxFrames ∧ t.rxInvalid = s.rxInvalid ∧ t.events = s.events ∧
      t.dspType = s.dspType ∧ t.dspLen = s.dspLen ∧ t.dspPayload = s.dspPayload ∧
      ∀ x : Bool, ∃ u, exec (.poll x) t = .next u ∧ u.lastResult = .deferPartial ∧ u.bytes = s.bytes

/-- R93: a stream with no START byte, polled at will, changes neither frame counter and gives no event. -/
def Obligations.NoiseChangesNoFrameCounter : Prop :=
  ∀ (ops : List Instr) (s : State),
    START ∉ s.bytes → START ∉ pushedBytes ops → (∀ i ∈ ops, i.isDelivery = true) →
    ∃ t, runOps ops s = .next t ∧ t.rxFrames = s.rxFrames ∧ t.rxInvalid = s.rxInvalid ∧
      t.events = s.events ∧ START ∉ t.bytes

/-- R94: a well-formed frame delivered in any chunks with any POLLs between them and no byte dropped: up
to its last byte no POLL removes a byte of it or does more than defer, and the first POLL after it
extracts it with the counts and the event of a delivery in one piece. -/
def Obligations.FragmentationDoesNotMatter : Prop :=
  ∀ (s : State) (f : List Byte) (ops : List Instr) (b : Byte),
    START ∉ s.bytes → wireWellFormed f = true → (∀ i ∈ ops, i.isDelivery = true) →
    pushedBytes (ops ++ [.push b]) = f → noByteLost (ops ++ [.push b]) s = true →
    (∀ a c : List Instr, ops = a ++ c → ∃ u noise, runOps a s = .next u ∧
      START ∉ noise ∧ u.bytes = noise ++ pushedBytes a ∧
      u.rxFrames = s.rxFrames ∧ u.rxInvalid = s.rxInvalid ∧ u.events = s.events ∧
      (∀ a' x, a = a' ++ [.poll x] → u.lastResult.isDefer = true)) ∧
    ∃ u, runOps (ops ++ [.push b]) s = .next u ∧
      ∀ x : Bool, ∃ v, exec (.poll x) u = .next v ∧ v.wcnt = 0 ∧
        v.rxFrames = (s.rxFrames + 1) % 2 ^ s.cfg.cntW ∧ v.rxInvalid = s.rxInvalid ∧
        v.rxDropped = s.rxDropped ∧
        (s.handlerEn = true → v.lastResult = .validDispatched ∧
          v.events = s.events ++ [⟨typeByte f, lengthByte f, payloadBytes f⟩]) ∧
        (s.handlerEn = false → v.lastResult = .validUnhandled ∧ v.events = s.events)

/-- R50: frames that stand in the window one behind the other, with noise before any of them, come out of
as many POLLs in the order they arrived. -/
def Obligations.FramesAreDispatchedInArrivalOrder : Prop :=
  ∀ (fs : List (List Byte × Byte × List Byte)) (tail : List Byte) (s : State),
    (∀ f ∈ fs, START ∉ f.1 ∧ f.2.2.length ≤ 255) →
    s.bytes = fs.flatMap (fun f => f.1 ++ frameBytes f.2.1 f.2.2) ++ tail → s.handlerEn = true →
    ∃ t, runOps (List.replicate fs.length (.poll false)) s = .next t ∧ t.bytes = tail ∧
      t.rxInvalid = s.rxInvalid ∧
      t.events = s.events ++ fs.map (fun f => ⟨f.2.1, BitVec.ofNat 8 f.2.2.length, f.2.2⟩) ∧
      (fs ≠ [] → t.rxFrames = (s.rxFrames + fs.length) % 2 ^ s.cfg.cntW)

/-! ## Control operations (44_control.md) -/

/-- R95: CLEAR's whole effect. -/
def Obligations.ClearEmptiesTheWindowOnly : Prop :=
  ∀ (x : Bool) (s : State), exec (.clear x) s = .next { s with wcnt := 0 }

/-- R96: SET_HANDLER's whole effect. -/
def Obligations.SetHandlerWritesTheEnableOnly : Prop :=
  ∀ (en : Bool) (s : State), exec (.handler en) s = .next { s with handlerEn := en }

/-- R97, R64: RESERVED changes nothing. -/
def Obligations.ReservedChangesNothing : Prop :=
  ∀ (x : Bool) (s : State), exec (.reserved x) s = .next s

/-! ## Frame instructions (45_dispatch.md) -/

/-- R87, R100, R103: with a sink, a validated frame of any type (PING, PONG, ACK, NACK, the eight CMD_
types, STATUS_UPDATE, SENSOR_DATA, ERROR_REPORT, DEBUG_MESSAGE, UNKNOWN) is counted, its TYPE byte and
payload go unchanged to the DSP registers, and one event holds them; nothing else changes. -/
def Obligations.ValidatedFrameIsDispatchedUnmodified : Prop :=
  ∀ (i : Instr) (k : FrameKind) (p : List Byte) (s : State),
    i.frame? = some (k, p) → p.length ≤ 255 → s.handlerEn = true →
    ∃ d : Memory,
      exec i s = .next
        { s with
          rxFrames := (s.rxFrames + 1) % 2 ^ s.cfg.cntW, lastResult := .validDispatched,
          dspType := k.code, dspLen := BitVec.ofNat 8 p.length, dspPayload := d,
          events := s.events ++ [⟨k.code, BitVec.ofNat 8 p.length, p⟩] } ∧
      d.prefixBytes p.length = p ∧ ∀ j, p.length ≤ j → d.read j = s.dspPayload.read j

/-- R105: without a sink, a validated frame of any of the seventeen types is counted and dropped; no
event, the DSP registers stay. -/
def Obligations.ValidatedFrameWithoutSinkIsCountedOnly : Prop :=
  ∀ (i : Instr) (k : FrameKind) (p : List Byte) (s : State),
    i.frame? = some (k, p) → p.length ≤ 255 → s.handlerEn = false →
    exec i s = .next
      { s with rxFrames := (s.rxFrames + 1) % 2 ^ s.cfg.cntW, lastResult := .validUnhandled }

/-- R69, R76: a frame form with more than 255 payload bytes is refused by name (log 17). -/
def Obligations.OversizedFrameFormIsRefused : Prop :=
  ∀ (i : Instr) (k : FrameKind) (p : List Byte) (s : State),
    i.frame? = some (k, p) → 255 < p.length → exec i s = .refused .oversizedPayload

/-- R100: of the operations only a POLL with outcome VALID_DISPATCHED gives an event, exactly one, and the
dispatch port's registers then hold it; no other gives any. -/
def Obligations.OnlyDispatchingPollGivesAnEvent : Prop :=
  ∀ (i : Instr) (s : State), i.isOperation = true → ∃ t, exec i s = .next t ∧
    (((∃ x, i = .poll x) ∧ t.lastResult = .validDispatched ∧
        t.events = s.events ++ [⟨t.dspType, t.dspLen, t.dspFrame⟩] ∧ dspValid s t = true) ∨
      (((∀ x, i ≠ .poll x) ∨ t.lastResult ≠ .validDispatched) ∧ t.events = s.events ∧ dspValid s t = false))

/-- R102: every operation but a dispatching POLL and RESET leaves the DSP registers unchanged. -/
def Obligations.DspRegistersHoldTheLastFrame : Prop :=
  ∀ (i : Instr) (s : State), i.isOperation = true → i ≠ .reset → ∃ t, exec i s = .next t ∧
    ((∀ x, i ≠ .poll x) ∨ t.lastResult ≠ .validDispatched →
      t.dspType = s.dspType ∧ t.dspLen = s.dspLen ∧ t.dspPayload = s.dspPayload)

/-! ## Counters and status (10_state.md) -/

/-- R34: each counter changes only by plus one modulo 2^CNT_W and by RESET, and no other operation writes
two of them. -/
def Obligations.CountersStepByOneAndAlone : Prop :=
  ∀ (i : Instr) (s : State), i.isOperation = true → i ≠ .reset → ∃ t, exec i s = .next t ∧
    ((t.rxFrames = s.rxFrames ∧ t.rxInvalid = s.rxInvalid ∧ t.rxDropped = s.rxDropped) ∨
     (t.rxFrames = (s.rxFrames + 1) % 2 ^ s.cfg.cntW ∧ t.rxInvalid = s.rxInvalid ∧ t.rxDropped = s.rxDropped) ∨
     (t.rxFrames = s.rxFrames ∧ t.rxInvalid = (s.rxInvalid + 1) % 2 ^ s.cfg.cntW ∧ t.rxDropped = s.rxDropped) ∨
     (t.rxFrames = s.rxFrames ∧ t.rxInvalid = s.rxInvalid ∧ t.rxDropped = (s.rxDropped + 1) % 2 ^ s.cfg.cntW))

/-- R28, R29, R30: of the operations, RX_FRAMES moves only in a POLL that ends valid, RX_INVALID only in
one that ends INVALID, RX_DROPPED only in an ACCEPT on a full window; RESET aside. -/
def Obligations.CountersHaveTheirOneWriter : Prop :=
  ∀ (i : Instr) (s : State), i.isOperation = true → i ≠ .reset → ∃ t, exec i s = .next t ∧
    (t.rxFrames ≠ s.rxFrames →
      (∃ x, i = .poll x) ∧ (t.lastResult = .validDispatched ∨ t.lastResult = .validUnhandled)) ∧
    (t.rxInvalid ≠ s.rxInvalid → (∃ x, i = .poll x) ∧ t.lastResult = .invalid) ∧
    (t.rxDropped ≠ s.rxDropped →
      (∃ b, i = .push b) ∧ s.cfg.ovfPolicy = .drop ∧ s.cfg.rxCap ≤ s.wcnt)

/-- R31: LAST_RESULT is written by every POLL (never with NONE) and by RESET (with NONE), and by no other
operation; code 7 is never seen. -/
def Obligations.LastResultWrittenByPollAndResetOnly : Prop :=
  ∀ (i : Instr) (s : State), i.isOperation = true → ∃ t, exec i s = .next t ∧ t.lastResult.code ≠ 7 ∧
    ((∃ x, i = .poll x) → t.lastResult ≠ .none) ∧
    (i = .reset → t.lastResult = .none) ∧
    ((∀ x, i ≠ .poll x) → i ≠ .reset → t.lastResult = s.lastResult)

/-- R32: HANDLER_EN is written only by SET_HANDLER and by RESET (to 0). -/
def Obligations.HandlerEnableWrittenBySetHandlerAndResetOnly : Prop :=
  ∀ (i : Instr) (s : State), i.isOperation = true → ∃ t, exec i s = .next t ∧
    (i = .reset → t.handlerEn = false) ∧
    (∀ en, i = .handler en → t.handlerEn = en) ∧
    ((∀ en, i ≠ .handler en) → i ≠ .reset → t.handlerEn = s.handlerEn)

/-- R33: the outputs are the table's functions of the state, last_result in the codes of R31's table. -/
def Obligations.OutputsFollowTheTable : Prop :=
  ∀ s : State,
    s.outputs.winCount = s.wcnt ∧ (s.outputs.winFull = true ↔ s.wcnt = s.cfg.rxCap) ∧
    s.outputs.inReady = s.inReady ∧ s.outputs.rxFrames = s.rxFrames ∧ s.outputs.rxInvalid = s.rxInvalid ∧
    s.outputs.rxDropped = s.rxDropped ∧ s.outputs.handlerEn = s.handlerEn ∧
    s.outputs.lastResult = (match s.lastResult with
      | .none => 0#3
      | .deferShort => 1#3
      | .deferResync => 2#3
      | .deferPartial => 3#3
      | .validDispatched => 4#3
      | .validUnhandled => 5#3
      | .invalid => 6#3) ∧
    s.outputs.dspType = s.dspType ∧ s.outputs.dspLen = s.dspLen ∧
    s.outputs.dspClass = (classOf s.dspType).code ∧ ∀ i : Fin 255, s.dspPayloadOut i = s.dspPayload.read i

/-- R20: no instruction changes the parameters; the schedule (the model's own, log 5) is not its business
either. D22: no instruction depends on TENDON_SPOOL_ENCODING. -/
def Obligations.ParametersNeverChange : Prop :=
  ∀ (i : Instr) (s : State), i.wellFormed = true → ∃ t, exec i s = .next t ∧
    t.cfg = s.cfg ∧ t.ports = s.ports ∧
    ∀ e : TendonSpoolEncoding,
      exec i { s with cfg := { s.cfg with tendonSpool := e } } =
        .next { t with cfg := { t.cfg with tendonSpool := e } }

/-! ## Steps and the pins (00_scope.md, 20_memory.md, 60_exceptions.md) -/

/-- A step runs the decoded input: when the oldest cycle presents one encoded input w and the decoder
reads i from it, the step is exec of i on the state whose schedule has moved on. -/
def Obligations.StepRunsTheDecodedInput : Prop :=
  ∀ (s : State) (w : PortWord) (i : Instr) (p : PortCycle) (rest : List PortCycle),
    s.cfg.ok = true → decode w = .ok i → w.cycles = [p] → i.isOperation = true → s.ports = p :: rest →
    step s = exec i { s with ports := rest }

/-- R49, R112: a byte and a command in one cycle are performed byte first, in two steps. -/
def Obligations.ByteIsPerformedBeforeCommand : Prop :=
  ∀ (s : State) (p : PortCycle) (rest : List PortCycle),
    s.cfg.ok = true → s.ports = p :: rest → p.rst = false → p.inValid = true → p.cmdValid = true →
    ∃ t u, exec (.push p.inData) { s with ports := rest } = .next t ∧
      exec (decodeCommand p.cmd) t = .next u ∧ core.run 2 s = .next u

/-- R121: in a cycle with reset asserted, RESET is performed and nothing else: in_ready is 0, no byte is
taken, no command performed, no event given. -/
def Obligations.ResetOverridesByteAndCommand : Prop :=
  ∀ (s : State) (p : PortCycle) (rest : List PortCycle),
    s.cfg.ok = true → s.ports = p :: rest → p.rst = true →
    s.inReady = false ∧
    ∃ d : Memory,
      step s = .next
        { s with
          wcnt := 0, rxFrames := 0, rxInvalid := 0, rxDropped := 0, handlerEn := false,
          lastResult := .none, dspType := 0x00#8, dspLen := 0x00#8, dspPayload := d, ports := rest } ∧
      ∀ i, i < 255 → d.read i = 0x00#8

/-- R19: with nothing presented FSV takes no step: the state stays, and an idle cycle only passes. The
stuttering step itself is log 6. -/
def Obligations.NothingPresentedNothingDone : Prop :=
  ∀ s : State, s.cfg.ok = true →
    (s.ports = [] → step s = .next s) ∧
    (∀ p rest, s.ports = p :: rest → p.rst = false → p.inValid = false → p.cmdValid = false →
      step s = .next { s with ports := rest })

/-- R48: presented one a cycle, the operations are performed one after the other, each on the state the
earlier ones leave. That this takes one step an operation over a schedule is the model's choice (log 5),
as are that a byte refused under BACKPRESSURE leaves with its cycle (log 7) and that a cycle with rst is
one RESET (log 19). -/
def Obligations.StepsFollowTheTotalOrder : Prop :=
  ∀ (ops : List Instr) (s : State) (rest : List PortCycle),
    s.cfg.ok = true → (∀ i ∈ ops, i.isOperation = true) →
    ∃ t, runOps ops { s with ports := rest } = .next t ∧
      core.run ops.length { s with ports := ops.flatMap (fun i => (encode i).cycles) ++ rest } = .next t

/-- R8: a configuration with RX_CAP < 4 is refused, by name (log 11). -/
def Obligations.TooSmallCapacityIsRefused : Prop :=
  ∀ s : State, s.cfg.rxCap < 4 → step s = .refused .rxCapBelowMinFrame

/-- R107 for the operations: every well-formed instruction and every step of a legal configuration
completes, and so does whatever comes next. That the frame rows are instructions with a next state is
log 9, and that a step with nothing presented answers next is log 6. -/
def Obligations.EveryOperationCompletes : Prop :=
  (∀ (i : Instr) (s : State), i.wellFormed = true → Safe (exec i s)) ∧
  (∀ (n : Nat) (s : State), s.cfg.ok = true → Safe (core.run n s))
end

