-- ==== Sys2Proof/Laws/Decode.lean ====
section
/-! SUPPORT. Small facts about the checksum, frames, type codes and command words. -/

namespace Sys2Proof

/-! ## Checksum (41_checksum.md R71) -/

@[simp] theorem checksum_nil : checksum [] = 0x00#8 := rfl

theorem checksum_foldl (s : List Byte) (a : Byte) : s.foldl (· ^^^ ·) a = a ^^^ checksum s := by
  induction s generalizing a with
  | nil => simp
  | cons b r ih =>
    simp only [checksum, List.foldl_cons]
    rw [ih, ih (0x00#8 ^^^ b), BitVec.zero_xor, BitVec.xor_assoc]

theorem checksum_cons (b : Byte) (s : List Byte) : checksum (b :: s) = b ^^^ checksum s := by
  rw [checksum, List.foldl_cons, checksum_foldl, BitVec.zero_xor]

theorem checksum_snoc (s : List Byte) (b : Byte) : checksum (s ++ [b]) = checksum s ^^^ b := by
  simp [checksum, List.foldl_append]

/-! ## Frames (30_encoding.md R55) -/

@[simp] theorem length_frameBytes (t : Byte) (p : List Byte) : (frameBytes t p).length = p.length + 4 := by
  simp [frameBytes]

@[simp] theorem byteAt_frameBytes_zero (t : Byte) (p : List Byte) : byteAt (frameBytes t p) 0 = START := rfl

@[simp] theorem typeByte_frameBytes (t : Byte) (p : List Byte) : typeByte (frameBytes t p) = t := rfl

@[simp] theorem lengthByte_frameBytes (t : Byte) (p : List Byte) :
    lengthByte (frameBytes t p) = BitVec.ofNat 8 p.length := rfl

/-- LENGTH holds the payload's length exactly, up to 255 (30_encoding.md R56). -/
theorem toNat_ofNat_length {p : List Byte} (h : p.length ≤ 255) : (BitVec.ofNat 8 p.length).toNat = p.length := by
  simp only [BitVec.toNat_ofNat]
  omega

theorem payloadBytes_frameBytes (t : Byte) {p : List Byte} (h : p.length ≤ 255) :
    payloadBytes (frameBytes t p) = p := by
  rw [payloadBytes, lengthByte_frameBytes, toNat_ofNat_length h]
  simp [frameBytes]

theorem frameLength_frameBytes (t : Byte) {p : List Byte} (h : p.length ≤ 255) :
    frameLength (lengthByte (frameBytes t p)) = (frameBytes t p).length := by
  simp [frameLength, toNat_ofNat_length h, Nat.add_comm]

/-- A built frame passes the checksum test (41_checksum.md R76). -/
theorem checksumOK_frameBytes (t : Byte) (p : List Byte) : checksumOK (frameBytes t p) = true := by
  have h1 : ((frameBytes t p).drop 1).take ((frameBytes t p).length - 2) = t :: BitVec.ofNat 8 p.length :: p := by
    simp [frameBytes]
  have h2 : byteAt (frameBytes t p) ((frameBytes t p).length - 1) =
      t ^^^ BitVec.ofNat 8 p.length ^^^ checksum p := by
    simp [frameBytes, byteAt]
  rw [checksumOK, h1, h2, checksum_cons, checksum_cons, beq_iff_eq, BitVec.xor_assoc]

/-! ## Type codes (30_encoding.md R60, R61) -/

/-- The TYPE byte is passed through: reading a kind from it and writing it back is the same byte. -/
theorem FrameKind.code_ofCode (t : Byte) : (FrameKind.ofCode t).code = t := by
  revert t; decide

theorem FrameKind.ofCode_code {k : FrameKind} (h : k.wellFormed = true) : FrameKind.ofCode k.code = k := by
  cases k with
  | unknown t => revert t; decide
  | _ => rfl

theorem FrameKind.ofCode_wellFormed (t : Byte) : (FrameKind.ofCode t).wellFormed = true := by
  revert t; decide

@[simp] theorem Instr.frame?_ofFrame (k : FrameKind) (p : List Byte) : (Instr.ofFrame k p).frame? = some (k, p) := by
  cases k <;> rfl

theorem Instr.eq_ofFrame {i : Instr} {k : FrameKind} {p : List Byte} (h : i.frame? = some (k, p)) :
    i = .ofFrame k p := by
  cases i <;> simp only [Instr.frame?, Option.some.injEq, Prod.mk.injEq, reduceCtorEq] at h <;>
    (obtain ⟨rfl, rfl⟩ := h; rfl)

theorem encode_ofFrame (k : FrameKind) (p : List Byte) : encode (.ofFrame k p) = .wire (frameBytes k.code p) := by
  cases k <;> rfl

/-! ## Widths (00_scope.md R11) -/

theorem Config.ok_iff {c : Config} : c.ok = true ↔ 4 ≤ c.rxCap := decide_eq_true_iff

/-- WCNT_W bits hold every count from 0 to RX_CAP, and no smaller width does. -/
theorem Config.wcntW_tight {c : Config} (h : c.ok = true) :
    c.rxCap < 2 ^ c.wcntW ∧ 2 ^ (c.wcntW - 1) ≤ c.rxCap := by
  have h4 := Config.ok_iff.1 h
  have h0 : c.rxCap ≠ 0 := by omega
  simp only [Config.wcntW, h0, if_false, Nat.add_sub_cancel]
  exact ⟨Nat.lt_log2_self, Nat.log2_self_le h0⟩

end Sys2Proof
end

