-- ==== Sys2Proof/Laws/State.lean ====
section
/-! SUPPORT. One lemma per field per update of the state, all true by rfl. -/

namespace Sys2Proof.Machine

variable (s : State)

@[simp] theorem State.appendByte_cfg (b : Byte) : (s.appendByte b).cfg = s.cfg := rfl
@[simp] theorem State.appendByte_win (b : Byte) : (s.appendByte b).win = s.win.write s.wcnt b := rfl
@[simp] theorem State.appendByte_wcnt (b : Byte) : (s.appendByte b).wcnt = s.wcnt + 1 := rfl
@[simp] theorem State.appendByte_rxFrames (b : Byte) : (s.appendByte b).rxFrames = s.rxFrames := rfl
@[simp] theorem State.appendByte_rxInvalid (b : Byte) : (s.appendByte b).rxInvalid = s.rxInvalid := rfl
@[simp] theorem State.appendByte_rxDropped (b : Byte) : (s.appendByte b).rxDropped = s.rxDropped := rfl
@[simp] theorem State.appendByte_handlerEn (b : Byte) : (s.appendByte b).handlerEn = s.handlerEn := rfl
@[simp] theorem State.appendByte_lastResult (b : Byte) : (s.appendByte b).lastResult = s.lastResult := rfl
@[simp] theorem State.appendByte_dspType (b : Byte) : (s.appendByte b).dspType = s.dspType := rfl
@[simp] theorem State.appendByte_dspLen (b : Byte) : (s.appendByte b).dspLen = s.dspLen := rfl
@[simp] theorem State.appendByte_dspPayload (b : Byte) : (s.appendByte b).dspPayload = s.dspPayload := rfl
@[simp] theorem State.appendByte_ports (b : Byte) : (s.appendByte b).ports = s.ports := rfl
@[simp] theorem State.appendByte_events (b : Byte) : (s.appendByte b).events = s.events := rfl

@[simp] theorem State.dropFront_cfg (n : Nat) : (s.dropFront n).cfg = s.cfg := rfl
@[simp] theorem State.dropFront_win (n : Nat) : (s.dropFront n).win = s.win.shiftDown n (s.wcnt - n) := rfl
@[simp] theorem State.dropFront_wcnt (n : Nat) : (s.dropFront n).wcnt = s.wcnt - n := rfl
@[simp] theorem State.dropFront_rxFrames (n : Nat) : (s.dropFront n).rxFrames = s.rxFrames := rfl
@[simp] theorem State.dropFront_rxInvalid (n : Nat) : (s.dropFront n).rxInvalid = s.rxInvalid := rfl
@[simp] theorem State.dropFront_rxDropped (n : Nat) : (s.dropFront n).rxDropped = s.rxDropped := rfl
@[simp] theorem State.dropFront_handlerEn (n : Nat) : (s.dropFront n).handlerEn = s.handlerEn := rfl
@[simp] theorem State.dropFront_lastResult (n : Nat) : (s.dropFront n).lastResult = s.lastResult := rfl
@[simp] theorem State.dropFront_dspType (n : Nat) : (s.dropFront n).dspType = s.dspType := rfl
@[simp] theorem State.dropFront_dspLen (n : Nat) : (s.dropFront n).dspLen = s.dspLen := rfl
@[simp] theorem State.dropFront_dspPayload (n : Nat) : (s.dropFront n).dspPayload = s.dspPayload := rfl
@[simp] theorem State.dropFront_ports (n : Nat) : (s.dropFront n).ports = s.ports := rfl
@[simp] theorem State.dropFront_events (n : Nat) : (s.dropFront n).events = s.events := rfl

@[simp] theorem State.clearWindow_cfg : (s.clearWindow).cfg = s.cfg := rfl
@[simp] theorem State.clearWindow_win : (s.clearWindow).win = s.win := rfl
@[simp] theorem State.clearWindow_wcnt : (s.clearWindow).wcnt = 0 := rfl
@[simp] theorem State.clearWindow_rxFrames : (s.clearWindow).rxFrames = s.rxFrames := rfl
@[simp] theorem State.clearWindow_rxInvalid : (s.clearWindow).rxInvalid = s.rxInvalid := rfl
@[simp] theorem State.clearWindow_rxDropped : (s.clearWindow).rxDropped = s.rxDropped := rfl
@[simp] theorem State.clearWindow_handlerEn : (s.clearWindow).handlerEn = s.handlerEn := rfl
@[simp] theorem State.clearWindow_lastResult : (s.clearWindow).lastResult = s.lastResult := rfl
@[simp] theorem State.clearWindow_dspType : (s.clearWindow).dspType = s.dspType := rfl
@[simp] theorem State.clearWindow_dspLen : (s.clearWindow).dspLen = s.dspLen := rfl
@[simp] theorem State.clearWindow_dspPayload : (s.clearWindow).dspPayload = s.dspPayload := rfl
@[simp] theorem State.clearWindow_ports : (s.clearWindow).ports = s.ports := rfl
@[simp] theorem State.clearWindow_events : (s.clearWindow).events = s.events := rfl

@[simp] theorem State.countReceived_cfg : (s.countReceived).cfg = s.cfg := rfl
@[simp] theorem State.countReceived_win : (s.countReceived).win = s.win := rfl
@[simp] theorem State.countReceived_wcnt : (s.countReceived).wcnt = s.wcnt := rfl
@[simp] theorem State.countReceived_rxFrames : (s.countReceived).rxFrames = bump s.rxFrames s.cfg.cntW := rfl
@[simp] theorem State.countReceived_rxInvalid : (s.countReceived).rxInvalid = s.rxInvalid := rfl
@[simp] theorem State.countReceived_rxDropped : (s.countReceived).rxDropped = s.rxDropped := rfl
@[simp] theorem State.countReceived_handlerEn : (s.countReceived).handlerEn = s.handlerEn := rfl
@[simp] theorem State.countReceived_lastResult : (s.countReceived).lastResult = s.lastResult := rfl
@[simp] theorem State.countReceived_dspType : (s.countReceived).dspType = s.dspType := rfl
@[simp] theorem State.countReceived_dspLen : (s.countReceived).dspLen = s.dspLen := rfl
@[simp] theorem State.countReceived_dspPayload : (s.countReceived).dspPayload = s.dspPayload := rfl
@[simp] theorem State.countReceived_ports : (s.countReceived).ports = s.ports := rfl
@[simp] theorem State.countReceived_events : (s.countReceived).events = s.events := rfl

@[simp] theorem State.countInvalid_cfg : (s.countInvalid).cfg = s.cfg := rfl
@[simp] theorem State.countInvalid_win : (s.countInvalid).win = s.win := rfl
@[simp] theorem State.countInvalid_wcnt : (s.countInvalid).wcnt = s.wcnt := rfl
@[simp] theorem State.countInvalid_rxFrames : (s.countInvalid).rxFrames = s.rxFrames := rfl
@[simp] theorem State.countInvalid_rxInvalid : (s.countInvalid).rxInvalid = bump s.rxInvalid s.cfg.cntW := rfl
@[simp] theorem State.countInvalid_rxDropped : (s.countInvalid).rxDropped = s.rxDropped := rfl
@[simp] theorem State.countInvalid_handlerEn : (s.countInvalid).handlerEn = s.handlerEn := rfl
@[simp] theorem State.countInvalid_lastResult : (s.countInvalid).lastResult = s.lastResult := rfl
@[simp] theorem State.countInvalid_dspType : (s.countInvalid).dspType = s.dspType := rfl
@[simp] theorem State.countInvalid_dspLen : (s.countInvalid).dspLen = s.dspLen := rfl
@[simp] theorem State.countInvalid_dspPayload : (s.countInvalid).dspPayload = s.dspPayload := rfl
@[simp] theorem State.countInvalid_ports : (s.countInvalid).ports = s.ports := rfl
@[simp] theorem State.countInvalid_events : (s.countInvalid).events = s.events := rfl

@[simp] theorem State.countDropped_cfg : (s.countDropped).cfg = s.cfg := rfl
@[simp] theorem State.countDropped_win : (s.countDropped).win = s.win := rfl
@[simp] theorem State.countDropped_wcnt : (s.countDropped).wcnt = s.wcnt := rfl
@[simp] theorem State.countDropped_rxFrames : (s.countDropped).rxFrames = s.rxFrames := rfl
@[simp] theorem State.countDropped_rxInvalid : (s.countDropped).rxInvalid = s.rxInvalid := rfl
@[simp] theorem State.countDropped_rxDropped : (s.countDropped).rxDropped = bump s.rxDropped s.cfg.cntW := rfl
@[simp] theorem State.countDropped_handlerEn : (s.countDropped).handlerEn = s.handlerEn := rfl
@[simp] theorem State.countDropped_lastResult : (s.countDropped).lastResult = s.lastResult := rfl
@[simp] theorem State.countDropped_dspType : (s.countDropped).dspType = s.dspType := rfl
@[simp] theorem State.countDropped_dspLen : (s.countDropped).dspLen = s.dspLen := rfl
@[simp] theorem State.countDropped_dspPayload : (s.countDropped).dspPayload = s.dspPayload := rfl
@[simp] theorem State.countDropped_ports : (s.countDropped).ports = s.ports := rfl
@[simp] theorem State.countDropped_events : (s.countDropped).events = s.events := rfl

@[simp] theorem State.setResult_cfg (r : LastResult) : (s.setResult r).cfg = s.cfg := rfl
@[simp] theorem State.setResult_win (r : LastResult) : (s.setResult r).win = s.win := rfl
@[simp] theorem State.setResult_wcnt (r : LastResult) : (s.setResult r).wcnt = s.wcnt := rfl
@[simp] theorem State.setResult_rxFrames (r : LastResult) : (s.setResult r).rxFrames = s.rxFrames := rfl
@[simp] theorem State.setResult_rxInvalid (r : LastResult) : (s.setResult r).rxInvalid = s.rxInvalid := rfl
@[simp] theorem State.setResult_rxDropped (r : LastResult) : (s.setResult r).rxDropped = s.rxDropped := rfl
@[simp] theorem State.setResult_handlerEn (r : LastResult) : (s.setResult r).handlerEn = s.handlerEn := rfl
@[simp] theorem State.setResult_lastResult (r : LastResult) : (s.setResult r).lastResult = r := rfl
@[simp] theorem State.setResult_dspType (r : LastResult) : (s.setResult r).dspType = s.dspType := rfl
@[simp] theorem State.setResult_dspLen (r : LastResult) : (s.setResult r).dspLen = s.dspLen := rfl
@[simp] theorem State.setResult_dspPayload (r : LastResult) : (s.setResult r).dspPayload = s.dspPayload := rfl
@[simp] theorem State.setResult_ports (r : LastResult) : (s.setResult r).ports = s.ports := rfl
@[simp] theorem State.setResult_events (r : LastResult) : (s.setResult r).events = s.events := rfl

@[simp] theorem State.setHandler_cfg (en : Bool) : (s.setHandler en).cfg = s.cfg := rfl
@[simp] theorem State.setHandler_win (en : Bool) : (s.setHandler en).win = s.win := rfl
@[simp] theorem State.setHandler_wcnt (en : Bool) : (s.setHandler en).wcnt = s.wcnt := rfl
@[simp] theorem State.setHandler_rxFrames (en : Bool) : (s.setHandler en).rxFrames = s.rxFrames := rfl
@[simp] theorem State.setHandler_rxInvalid (en : Bool) : (s.setHandler en).rxInvalid = s.rxInvalid := rfl
@[simp] theorem State.setHandler_rxDropped (en : Bool) : (s.setHandler en).rxDropped = s.rxDropped := rfl
@[simp] theorem State.setHandler_handlerEn (en : Bool) : (s.setHandler en).handlerEn = en := rfl
@[simp] theorem State.setHandler_lastResult (en : Bool) : (s.setHandler en).lastResult = s.lastResult := rfl
@[simp] theorem State.setHandler_dspType (en : Bool) : (s.setHandler en).dspType = s.dspType := rfl
@[simp] theorem State.setHandler_dspLen (en : Bool) : (s.setHandler en).dspLen = s.dspLen := rfl
@[simp] theorem State.setHandler_dspPayload (en : Bool) : (s.setHandler en).dspPayload = s.dspPayload := rfl
@[simp] theorem State.setHandler_ports (en : Bool) : (s.setHandler en).ports = s.ports := rfl
@[simp] theorem State.setHandler_events (en : Bool) : (s.setHandler en).events = s.events := rfl

@[simp] theorem State.writeDsp_cfg (t : Byte) (p : List Byte) : (s.writeDsp t p).cfg = s.cfg := rfl
@[simp] theorem State.writeDsp_win (t : Byte) (p : List Byte) : (s.writeDsp t p).win = s.win := rfl
@[simp] theorem State.writeDsp_wcnt (t : Byte) (p : List Byte) : (s.writeDsp t p).wcnt = s.wcnt := rfl
@[simp] theorem State.writeDsp_rxFrames (t : Byte) (p : List Byte) : (s.writeDsp t p).rxFrames = s.rxFrames := rfl
@[simp] theorem State.writeDsp_rxInvalid (t : Byte) (p : List Byte) : (s.writeDsp t p).rxInvalid = s.rxInvalid := rfl
@[simp] theorem State.writeDsp_rxDropped (t : Byte) (p : List Byte) : (s.writeDsp t p).rxDropped = s.rxDropped := rfl
@[simp] theorem State.writeDsp_handlerEn (t : Byte) (p : List Byte) : (s.writeDsp t p).handlerEn = s.handlerEn := rfl
@[simp] theorem State.writeDsp_lastResult (t : Byte) (p : List Byte) : (s.writeDsp t p).lastResult = s.lastResult := rfl
@[simp] theorem State.writeDsp_dspType (t : Byte) (p : List Byte) : (s.writeDsp t p).dspType = t := rfl
@[simp] theorem State.writeDsp_dspLen (t : Byte) (p : List Byte) : (s.writeDsp t p).dspLen = BitVec.ofNat 8 p.length := rfl
@[simp] theorem State.writeDsp_dspPayload (t : Byte) (p : List Byte) : (s.writeDsp t p).dspPayload = s.dspPayload.writeBytes 0 p := rfl
@[simp] theorem State.writeDsp_ports (t : Byte) (p : List Byte) : (s.writeDsp t p).ports = s.ports := rfl
@[simp] theorem State.writeDsp_events (t : Byte) (p : List Byte) : (s.writeDsp t p).events = s.events := rfl

@[simp] theorem State.emit_cfg (t : Byte) (p : List Byte) : (s.emit t p).cfg = s.cfg := rfl
@[simp] theorem State.emit_win (t : Byte) (p : List Byte) : (s.emit t p).win = s.win := rfl
@[simp] theorem State.emit_wcnt (t : Byte) (p : List Byte) : (s.emit t p).wcnt = s.wcnt := rfl
@[simp] theorem State.emit_rxFrames (t : Byte) (p : List Byte) : (s.emit t p).rxFrames = s.rxFrames := rfl
@[simp] theorem State.emit_rxInvalid (t : Byte) (p : List Byte) : (s.emit t p).rxInvalid = s.rxInvalid := rfl
@[simp] theorem State.emit_rxDropped (t : Byte) (p : List Byte) : (s.emit t p).rxDropped = s.rxDropped := rfl
@[simp] theorem State.emit_handlerEn (t : Byte) (p : List Byte) : (s.emit t p).handlerEn = s.handlerEn := rfl
@[simp] theorem State.emit_lastResult (t : Byte) (p : List Byte) : (s.emit t p).lastResult = s.lastResult := rfl
@[simp] theorem State.emit_dspType (t : Byte) (p : List Byte) : (s.emit t p).dspType = s.dspType := rfl
@[simp] theorem State.emit_dspLen (t : Byte) (p : List Byte) : (s.emit t p).dspLen = s.dspLen := rfl
@[simp] theorem State.emit_dspPayload (t : Byte) (p : List Byte) : (s.emit t p).dspPayload = s.dspPayload := rfl
@[simp] theorem State.emit_ports (t : Byte) (p : List Byte) : (s.emit t p).ports = s.ports := rfl
@[simp] theorem State.emit_events (t : Byte) (p : List Byte) : (s.emit t p).events = s.events ++ [⟨t, BitVec.ofNat 8 p.length, p⟩] := rfl

@[simp] theorem State.applyReset_cfg : (s.applyReset).cfg = s.cfg := rfl
@[simp] theorem State.applyReset_win : (s.applyReset).win = s.win := rfl
@[simp] theorem State.applyReset_wcnt : (s.applyReset).wcnt = 0 := rfl
@[simp] theorem State.applyReset_rxFrames : (s.applyReset).rxFrames = 0 := rfl
@[simp] theorem State.applyReset_rxInvalid : (s.applyReset).rxInvalid = 0 := rfl
@[simp] theorem State.applyReset_rxDropped : (s.applyReset).rxDropped = 0 := rfl
@[simp] theorem State.applyReset_handlerEn : (s.applyReset).handlerEn = false := rfl
@[simp] theorem State.applyReset_lastResult : (s.applyReset).lastResult = .none := rfl
@[simp] theorem State.applyReset_dspType : (s.applyReset).dspType = 0x00#8 := rfl
@[simp] theorem State.applyReset_dspLen : (s.applyReset).dspLen = 0x00#8 := rfl
@[simp] theorem State.applyReset_dspPayload : (s.applyReset).dspPayload = [] := rfl
@[simp] theorem State.applyReset_ports : (s.applyReset).ports = s.ports := rfl
@[simp] theorem State.applyReset_events : (s.applyReset).events = s.events := rfl

/-- The window's bytes are a function of WIN and WCNT alone. -/
theorem State.bytes_eq : s.bytes = s.win.prefixBytes s.wcnt := rfl

@[simp] theorem State.countReceived_bytes : (s.countReceived).bytes = s.bytes := rfl
@[simp] theorem State.countInvalid_bytes : (s.countInvalid).bytes = s.bytes := rfl
@[simp] theorem State.countDropped_bytes : (s.countDropped).bytes = s.bytes := rfl
@[simp] theorem State.setResult_bytes (r : LastResult) : (s.setResult r).bytes = s.bytes := rfl
@[simp] theorem State.setHandler_bytes (en : Bool) : (s.setHandler en).bytes = s.bytes := rfl
@[simp] theorem State.writeDsp_bytes (t : Byte) (p : List Byte) : (s.writeDsp t p).bytes = s.bytes := rfl
@[simp] theorem State.emit_bytes (t : Byte) (p : List Byte) : (s.emit t p).bytes = s.bytes := rfl

@[simp] theorem Result.next?_next : Result.next? (.next s) = some s := rfl
@[simp] theorem Result.next?_refused (r : Refusal) : Result.next? (.refused r) = none := rfl

end Sys2Proof.Machine
end

