-- ==== Sys2Proof/Laws/Memory.lean ====
section
/-! SUPPORT. The two byte spaces: reading what was written, the canonical form, and the window's
sequence under an append and a removal from the front. -/

namespace Sys2Proof.Machine

/-! ## The canonical form, cell by cell -/

@[simp] theorem Memory.wf_nil : Memory.wf [] = true := rfl

theorem Memory.wf_cons (k : Nat) (v : Byte) (r : Memory) :
    Memory.wf ((k, v) :: r) = true ↔
      v ≠ Memory.unlisted ∧ (∀ c ∈ r, k < c.1) ∧ Memory.wf r = true := by
  simp only [Memory.wf, List.all_cons, List.pairwise_cons, Bool.and_eq_true, bne_iff_ne, decide_eq_true_eq]
  tauto

theorem Memory.below_cons (n k : Nat) (v : Byte) (r : Memory) :
    Memory.below n ((k, v) :: r) = true ↔ k < n ∧ Memory.below n r = true := by
  simp [Memory.below]

theorem Memory.below_mem {n : Nat} {m : Memory} (h : m.below n = true) : ∀ c ∈ m, c.1 < n := by
  simpa [Memory.below] using h

/-! ## Reading -/

@[simp] theorem Memory.read_nil (a : Nat) : Memory.read [] a = Memory.unlisted := rfl

/-- An index below every listed one reads as unlisted. -/
theorem Memory.read_of_lt {m : Memory} {a : Nat} (h : ∀ c ∈ m, a < c.1) : m.read a = Memory.unlisted := by
  induction m with
  | nil => rfl
  | cons c r ih =>
    obtain ⟨k, v⟩ := c
    have hk : a < k := h (k, v) (by simp)
    simp only [Memory.read, show ¬ k = a by omega, if_false]
    exact ih fun c hc => h c (by simp [hc])

theorem Memory.read_filter_other {m : Memory} {a b : Nat} (hab : b ≠ a) :
    Memory.read (m.filter fun c => c.1 != a) b = m.read b := by
  induction m with
  | nil => rfl
  | cons c r ih =>
    obtain ⟨k, w⟩ := c
    by_cases hk : k = a
    · subst hk
      simp only [List.filter_cons, bne_self_eq_false, Bool.false_eq_true, if_false, Memory.read, Ne.symm hab]
      exact ih
    · simp only [List.filter_cons, bne_iff_ne, ne_eq, hk, not_false_eq_true, if_true, Memory.read, ih]

theorem Memory.read_filter_same (m : Memory) (a : Nat) :
    Memory.read (m.filter fun c => c.1 != a) a = Memory.unlisted := by
  induction m with
  | nil => rfl
  | cons c r ih =>
    obtain ⟨k, w⟩ := c
    by_cases hk : k = a
    · subst hk
      simpa only [List.filter_cons, bne_self_eq_false, Bool.false_eq_true, if_false] using ih
    · simp only [List.filter_cons, bne_iff_ne, ne_eq, hk, not_false_eq_true, if_true, Memory.read, if_false, ih]

theorem Memory.read_insertCell_other {m : Memory} {a b : Nat} {v : Byte} (hab : b ≠ a) :
    (m.insertCell a v).read b = m.read b := by
  induction m with
  | nil => simp [Memory.insertCell, Memory.read, Ne.symm hab]
  | cons c r ih =>
    obtain ⟨k, w⟩ := c
    unfold Memory.insertCell
    split_ifs with h
    · simp [Memory.read, Ne.symm hab]
    · simp only [Memory.read, ih]

theorem Memory.read_insertCell_same {m : Memory} {a : Nat} {v : Byte} (h : ∀ c ∈ m, c.1 ≠ a) :
    (m.insertCell a v).read a = v := by
  induction m with
  | nil => simp [Memory.insertCell, Memory.read]
  | cons c r ih =>
    obtain ⟨k, w⟩ := c
    have hk : k ≠ a := h (k, w) (by simp)
    unfold Memory.insertCell
    split_ifs with h1
    · simp [Memory.read]
    · simp only [Memory.read, hk, if_false]
      exact ih fun c hc => h c (by simp [hc])

/-! ## Writing -/

/-- A write leaves every other index as it was. -/
theorem Memory.read_write_other {m : Memory} {a b : Nat} {v : Byte} (hab : b ≠ a) :
    (m.write a v).read b = m.read b := by
  simp only [Memory.write]
  split_ifs
  · exact Memory.read_filter_other hab
  · rw [Memory.read_insertCell_other hab, Memory.read_filter_other hab]

/-- A read gives back what was written. -/
@[simp] theorem Memory.read_write_same (m : Memory) (a : Nat) (v : Byte) : (m.write a v).read a = v := by
  simp only [Memory.write]
  split_ifs with h
  · rw [Memory.read_filter_same, h]
  · exact Memory.read_insertCell_same fun c hc => by simpa using (List.mem_filter.1 hc).2

theorem Memory.insertCell_mem {m : Memory} {a : Nat} {v : Byte} {c : Host.Cell} (h : c ∈ m.insertCell a v) :
    c = (a, v) ∨ c ∈ m := by
  induction m with
  | nil => simpa [Memory.insertCell] using h
  | cons d r ih =>
    obtain ⟨k, w⟩ := d
    unfold Memory.insertCell at h
    split_ifs at h
    · simpa using h
    · rcases List.mem_cons.1 h with h | h
      · exact .inr (by simp [h])
      · exact (ih h).imp_right fun h => by simp [h]

theorem Memory.write_mem {m : Memory} {a : Nat} {v : Byte} {c : Host.Cell} (h : c ∈ m.write a v) :
    c.1 = a ∨ c ∈ m := by
  simp only [Memory.write] at h
  split_ifs at h
  · exact .inr (List.mem_filter.1 h).1
  · rcases Memory.insertCell_mem h with h | h
    · exact .inl (by rw [h])
    · exact .inr (List.mem_filter.1 h).1

theorem Memory.wf_filter {m : Memory} (hm : m.wf = true) (f : Host.Cell → Bool) :
    Memory.wf (m.filter f) = true := by
  simp only [Memory.wf, Bool.and_eq_true, List.all_eq_true, decide_eq_true_eq] at *
  exact ⟨fun c hc => hm.1 c (List.mem_filter.1 hc).1, hm.2.filter f⟩

theorem Memory.wf_insertCell {m : Memory} (hm : m.wf = true) {a : Nat} {v : Byte}
    (h : ∀ c ∈ m, c.1 ≠ a) (hv : v ≠ Memory.unlisted) : (m.insertCell a v).wf = true := by
  induction m with
  | nil => simpa [Memory.insertCell, Memory.wf] using hv
  | cons d r ih =>
    obtain ⟨k, w⟩ := d
    obtain ⟨hw, hlt, hr⟩ := (Memory.wf_cons k w r).1 hm
    have hk : k ≠ a := h (k, w) (by simp)
    unfold Memory.insertCell
    split_ifs with h1
    · refine (Memory.wf_cons a v _).2 ⟨hv, fun c hc => ?_, hm⟩
      rcases List.mem_cons.1 hc with rfl | hc
      · exact h1
      · exact lt_trans h1 (hlt c hc)
    · refine (Memory.wf_cons k w _).2 ⟨hw, fun c hc => ?_, ih hr fun c hc => h c (by simp [hc])⟩
      rcases Memory.insertCell_mem hc with rfl | h
      · exact lt_of_le_of_ne (not_lt.1 h1) hk
      · exact hlt c h

/-- A write keeps the canonical form. -/
theorem Memory.write_wf {m : Memory} (hm : m.wf = true) (a : Nat) (v : Byte) : (m.write a v).wf = true := by
  simp only [Memory.write]
  split_ifs with h
  · exact Memory.wf_filter hm _
  · exact Memory.wf_insertCell (Memory.wf_filter hm _) (fun c hc => by simpa using (List.mem_filter.1 hc).2) h

theorem Memory.write_below {m : Memory} {n a : Nat} (hm : m.below n = true) (ha : a < n) (v : Byte) :
    (m.write a v).below n = true := by
  simp only [Memory.below, List.all_eq_true, decide_eq_true_eq] at *
  intro c hc
  rcases Memory.write_mem hc with h | h
  · omega
  · exact hm c h

/-- Two canonical memories that read alike are the same list. -/
theorem Memory.eq_of_read_eq {m m' : Memory} (hm : m.wf = true) (hm' : m'.wf = true)
    (h : ∀ a, m.read a = m'.read a) : m = m' := by
  induction m generalizing m' with
  | nil =>
    cases m' with
    | nil => rfl
    | cons d r' =>
      obtain ⟨k', w'⟩ := d
      have := h k'
      simp [Memory.read] at this
      exact absurd this.symm ((Memory.wf_cons k' w' r').1 hm').1
  | cons c r ih =>
    obtain ⟨k, w⟩ := c
    obtain ⟨hw, hlt, hr⟩ := (Memory.wf_cons k w r).1 hm
    cases m' with
    | nil =>
      have := h k
      simp [Memory.read] at this
      exact absurd this hw
    | cons d r' =>
      obtain ⟨k', w'⟩ := d
      obtain ⟨hw', hlt', hr'⟩ := (Memory.wf_cons k' w' r').1 hm'
      have hk : k = k' := by
        by_contra hne
        rcases lt_or_gt_of_ne hne with hl | hl
        · have h1 := h k
          rw [Memory.read_of_lt (m := (k', w') :: r') fun c hc => by
            rcases List.mem_cons.1 hc with rfl | hc
            · exact hl
            · exact lt_trans hl (hlt' c hc)] at h1
          simp [Memory.read] at h1
          exact hw h1
        · have h1 := h k'
          rw [Memory.read_of_lt (m := (k, w) :: r) fun c hc => by
            rcases List.mem_cons.1 hc with rfl | hc
            · exact hl
            · exact lt_trans hl (hlt c hc)] at h1
          simp [Memory.read] at h1
          exact hw' h1.symm
      subst hk
      have hv : w = w' := by simpa [Memory.read] using h k
      subst hv
      congr 1
      refine ih hr hr' fun a => ?_
      by_cases ha : k = a
      · subst ha; rw [Memory.read_of_lt hlt, Memory.read_of_lt hlt']
      · simpa [Memory.read, ha] using h a

/-! ## Writing several bytes -/

theorem Memory.writeBytes_wf {m : Memory} (hm : m.wf = true) (a : Nat) (bs : List Byte) :
    (m.writeBytes a bs).wf = true := by
  induction bs generalizing m a with
  | nil => exact hm
  | cons b r ih => exact ih (Memory.write_wf hm a b) (a + 1)

theorem Memory.writeBytes_below {m : Memory} {n a : Nat} {bs : List Byte} (hm : m.below n = true)
    (ha : a + bs.length ≤ n) : (m.writeBytes a bs).below n = true := by
  induction bs generalizing m a with
  | nil => exact hm
  | cons b r ih =>
    simp only [List.length_cons] at ha
    exact ih (Memory.write_below hm (by omega) b) (by omega)

/-- Everything a write of several bytes does: it changes exactly the indices it names. -/
theorem Memory.read_writeBytes_other {m : Memory} {a b : Nat} {bs : List Byte}
    (h : b < a ∨ a + bs.length ≤ b) : (m.writeBytes a bs).read b = m.read b := by
  induction bs generalizing m a with
  | nil => rfl
  | cons c r ih =>
    simp only [List.length_cons] at h
    rw [Memory.writeBytes, ih (by omega), Memory.read_write_other (by omega)]

theorem Memory.read_writeBytes_same {m : Memory} {a i : Nat} {bs : List Byte}
    (h : i < bs.length) : (m.writeBytes a bs).read (a + i) = bs[i] := by
  induction bs generalizing m a i with
  | nil => simp at h
  | cons c r ih =>
    rw [Memory.writeBytes]
    cases i with
    | zero =>
      rw [Memory.read_writeBytes_other (by omega)]
      exact Memory.read_write_same m a c
    | succ j =>
      have hj : j < r.length := by simpa using h
      have := ih (m := Memory.write m a c) (a := a + 1) hj
      rw [show a + 1 + j = a + (j + 1) by omega] at this
      simpa using this

/-! ## Prefixes -/

@[simp] theorem Memory.length_prefixBytes (m : Memory) (n : Nat) : (m.prefixBytes n).length = n := by
  simp [Memory.prefixBytes]

@[simp] theorem Memory.getElem_prefixBytes (m : Memory) (n i : Nat) (h : i < (m.prefixBytes n).length) :
    (m.prefixBytes n)[i] = m.read i := by
  simp [Memory.prefixBytes]

theorem Memory.prefixBytes_congr {m m' : Memory} {n : Nat} (h : ∀ i, i < n → m.read i = m'.read i) :
    m.prefixBytes n = m'.prefixBytes n := by
  simp only [Memory.prefixBytes]
  exact List.map_congr_left fun i hi => h i (List.mem_range.1 hi)

theorem Memory.take_prefixBytes (m : Memory) {n k : Nat} (h : k ≤ n) :
    (m.prefixBytes n).take k = m.prefixBytes k := by
  apply List.ext_getElem
  · simp [h]
  · intro i h1 h2; simp

/-- Bytes written at the front read back as that prefix. -/
theorem Memory.prefixBytes_writeBytes (m : Memory) (bs : List Byte) :
    (m.writeBytes 0 bs).prefixBytes bs.length = bs := by
  apply List.ext_getElem
  · simp
  · intro i h1 h2
    have := Memory.read_writeBytes_same (m := m) (a := 0) h2
    simpa using this

/-! ## Compaction (20_memory.md R46) -/

/-- Everything shiftDown does to a read. -/
theorem Memory.read_shiftDown (m : Memory) (n c i : Nat) :
    (m.shiftDown n c).read i = if i < c then m.read (i + n) else m.read i := by
  unfold Memory.shiftDown
  split_ifs with h
  · have := Memory.read_writeBytes_same (m := m) (a := 0) (i := i)
      (bs := (List.range c).map fun i => Memory.read m (i + n)) (by simpa using h)
    simpa using this
  · exact Memory.read_writeBytes_other (by simp; omega)

theorem Memory.shiftDown_wf {m : Memory} (hm : m.wf = true) (n c : Nat) : (m.shiftDown n c).wf = true :=
  Memory.writeBytes_wf hm 0 _

theorem Memory.shiftDown_below {m : Memory} {k : Nat} (hm : m.below k = true) (n c : Nat) (hc : c ≤ k) :
    (m.shiftDown n c).below k = true :=
  Memory.writeBytes_below hm (by simpa using hc)

/-- A shift by nothing changes no canonical memory. -/
theorem Memory.shiftDown_zero {m : Memory} (hm : m.wf = true) (c : Nat) : m.shiftDown 0 c = m :=
  Memory.eq_of_read_eq (Memory.shiftDown_wf hm 0 c) hm fun a => by simp [Memory.read_shiftDown]

/-! ## The window as a sequence -/

@[simp] theorem State.length_bytes (s : State) : s.bytes.length = s.wcnt := by simp [State.bytes]

/-- The window's sequence after an append. -/
theorem State.appendByte_bytes (s : State) (b : Byte) : (s.appendByte b).bytes = s.bytes ++ [b] := by
  apply List.ext_getElem
  · simp
  · intro i h1 h2
    by_cases hi : i < s.wcnt
    · rw [List.getElem_append_left (by simpa using hi)]
      simp [State.bytes, Memory.read_write_other (show i ≠ s.wcnt by omega)]
    · have : i = s.wcnt := by simp at h1; omega
      subst this
      rw [List.getElem_append_right (by simp)]
      simp [State.bytes]

/-- The bytes drop_front leaves are read from n onwards, whatever n is. -/
theorem State.dropFront_bytes (s : State) (n : Nat) : (s.dropFront n).bytes = s.bytes.drop n := by
  apply List.ext_getElem
  · simp
  · intro i h1 h2
    have hi : i < s.wcnt - n := by simpa using h1
    simp [State.bytes, Memory.read_shiftDown, hi, Nat.add_comm]

theorem State.clearWindow_bytes (s : State) : s.clearWindow.bytes = [] := by
  simp [State.bytes, Memory.prefixBytes]

theorem State.applyReset_bytes (s : State) : s.applyReset.bytes = [] := by
  simp [State.bytes, Memory.prefixBytes]

/-- A read below WCNT is that element of the sequence. -/
theorem State.byteAt_bytes {s : State} {i : Nat} (h : i < s.wcnt) : byteAt s.bytes i = s.win.read i := by
  rw [byteAt, List.getD_eq_getElem _ _ (by simpa using h)]
  simp [State.bytes]

/-- A shorter prefix of the window is a prefix of its sequence. -/
theorem State.take_bytes {s : State} {n : Nat} (h : n ≤ s.wcnt) : s.bytes.take n = s.win.prefixBytes n :=
  Memory.take_prefixBytes s.win h

end Sys2Proof.Machine
end

