-- ==== Sys2Proof/Laws/PerInstr.lean ====
section
/-! SUPPORT. Per instruction: its encoding is a word of its own row of spec/opcode_table.json. -/

namespace Sys2Proof.Laws

/-- An instruction's encoding has its row's format, and its number agrees with the row's match on the
bits of the row's mask. -/
def TableRow.Statement (i : Instr) : Prop :=
  (encode i).rowNumber.1 = i.row.format ∧ (encode i).rowNumber.2 &&& i.row.maskBits = i.row.matchBits

/-- A frame instruction's number is its kind's code (30_encoding.md R60). -/
theorem TableRow.ofKind (k : FrameKind) (p : List Byte)
    (h : (Instr.ofFrame k []).row.format = .frameType ∧
      k.code.toNat &&& (Instr.ofFrame k []).row.maskBits = (Instr.ofFrame k []).row.matchBits) :
    TableRow.Statement (.ofFrame k p) := by
  have hr : (Instr.ofFrame k p).row = (Instr.ofFrame k []).row := by cases k <;> rfl
  rw [TableRow.Statement, encode_ofFrame, hr]
  exact ⟨h.1.symm, h.2⟩

theorem TableRow.push (b : Byte) : TableRow.Statement (.push b) :=
  ⟨rfl, show true.toNat &&& 0b1 = 0b1 by decide⟩
theorem TableRow.poll (x : Bool) : TableRow.Statement (.poll x) := by cases x <;> exact ⟨rfl, rfl⟩
theorem TableRow.clear (x : Bool) : TableRow.Statement (.clear x) := by cases x <;> exact ⟨rfl, rfl⟩
theorem TableRow.handler (en : Bool) : TableRow.Statement (.handler en) := by cases en <;> exact ⟨rfl, rfl⟩
theorem TableRow.reserved (x : Bool) : TableRow.Statement (.reserved x) := by cases x <;> exact ⟨rfl, rfl⟩
theorem TableRow.reset : TableRow.Statement .reset := ⟨rfl, rfl⟩
theorem TableRow.ping (p : List Byte) : TableRow.Statement (.ping p) := TableRow.ofKind .ping p (by decide)
theorem TableRow.pong (p : List Byte) : TableRow.Statement (.pong p) := TableRow.ofKind .pong p (by decide)
theorem TableRow.ack (p : List Byte) : TableRow.Statement (.ack p) := TableRow.ofKind .ack p (by decide)
theorem TableRow.nack (p : List Byte) : TableRow.Statement (.nack p) := TableRow.ofKind .nack p (by decide)
theorem TableRow.cmdSetMode (p : List Byte) : TableRow.Statement (.cmdSetMode p) := TableRow.ofKind .cmdSetMode p (by decide)
theorem TableRow.cmdSetParam (p : List Byte) : TableRow.Statement (.cmdSetParam p) := TableRow.ofKind .cmdSetParam p (by decide)
theorem TableRow.cmdStart (p : List Byte) : TableRow.Statement (.cmdStart p) := TableRow.ofKind .cmdStart p (by decide)
theorem TableRow.cmdStop (p : List Byte) : TableRow.Statement (.cmdStop p) := TableRow.ofKind .cmdStop p (by decide)
theorem TableRow.cmdReset (p : List Byte) : TableRow.Statement (.cmdReset p) := TableRow.ofKind .cmdReset p (by decide)
theorem TableRow.cmdReadSensor (p : List Byte) : TableRow.Statement (.cmdReadSensor p) := TableRow.ofKind .cmdReadSensor p (by decide)
theorem TableRow.cmdSetTendons (p : List Byte) : TableRow.Statement (.cmdSetTendons p) := TableRow.ofKind .cmdSetTendons p (by decide)
theorem TableRow.cmdSetSpool (p : List Byte) : TableRow.Statement (.cmdSetSpool p) := TableRow.ofKind .cmdSetSpool p (by decide)
theorem TableRow.statusUpdate (p : List Byte) : TableRow.Statement (.statusUpdate p) := TableRow.ofKind .statusUpdate p (by decide)
theorem TableRow.sensorData (p : List Byte) : TableRow.Statement (.sensorData p) := TableRow.ofKind .sensorData p (by decide)
theorem TableRow.errorReport (p : List Byte) : TableRow.Statement (.errorReport p) := TableRow.ofKind .errorReport p (by decide)
theorem TableRow.debugMessage (p : List Byte) : TableRow.Statement (.debugMessage p) := TableRow.ofKind .debugMessage p (by decide)
theorem TableRow.unknown (t : Byte) (p : List Byte) : TableRow.Statement (.unknown t p) :=
  ⟨rfl, Nat.and_zero _⟩

end Sys2Proof.Laws
end

