-- ==== Sys2Proof/Laws/Poll.lean ====
section
/-! SUPPORT. What the shared operations of POLL and of the frame instructions can do, said once. -/

namespace Sys2Proof.Machine

/-! ## Frame instructions -/

/-- Every frame instruction is the one shared operation on its kind. -/
theorem runFrame_eq (k : FrameKind) (p : List Byte) (s : State) : runFrame k p s = receiveFrame k p s := by
  cases k <;> rfl

theorem exec_ofFrame (k : FrameKind) (p : List Byte) (s : State) : exec (.ofFrame k p) s = runFrame k p s := by
  cases k <;> rfl

theorem receiveFrame_next {k : FrameKind} {p : List Byte} (h : p.length ≤ 255) (s : State) :
    receiveFrame k p s = .next (s.deliver k.code p) := by
  rw [receiveFrame, if_pos (by simpa using h)]

/-- Everything a delivery does, with a sink. -/
theorem State.deliver_on {s : State} (h : s.handlerEn = true) (t : Byte) (p : List Byte) :
    s.deliver t p =
      { s with
        rxFrames := bump s.rxFrames s.cfg.cntW, lastResult := .validDispatched, dspType := t,
        dspLen := BitVec.ofNat 8 p.length, dspPayload := s.dspPayload.writeBytes 0 p,
        events := s.events ++ [⟨t, BitVec.ofNat 8 p.length, p⟩] } := by
  rw [State.deliver, if_pos h]; rfl

/-- Everything a delivery does, without a sink. -/
theorem State.deliver_off {s : State} (h : s.handlerEn = false) (t : Byte) (p : List Byte) :
    s.deliver t p = { s with rxFrames := bump s.rxFrames s.cfg.cntW, lastResult := .validUnhandled } := by
  rw [State.deliver, if_neg (by simp [h])]; rfl

/-! ## The window as POLL reads it -/

/-- The sequence from the first START on. -/
def State.synced (s : State) : List Byte := s.bytes.dropWhile (· != START)

theorem drop_findIdx (l : List Byte) : l.drop (l.findIdx (· == START)) = l.dropWhile (· != START) := by
  induction l with
  | nil => rfl
  | cons b r ih =>
    by_cases h : b = START
    · subst h; simp [List.findIdx_cons]
    · have h' : (b == START) = false := by simpa using h
      simp [List.findIdx_cons, h', h, ih]

theorem State.resynced_bytes (s : State) : s.resynced.bytes = s.synced := by
  rw [State.resynced, State.dropFront_bytes, State.resyncIndex, drop_findIdx, State.synced]

theorem State.resynced_wcnt (s : State) : s.resynced.wcnt = s.synced.length := by
  rw [← State.length_bytes, State.resynced_bytes]

/-- After resync the window is empty or begins with START (43_poll.md R83). -/
theorem State.synced_head (s : State) : s.synced = [] ∨ byteAt s.synced 0 = START := by
  unfold State.synced
  induction s.bytes with
  | nil => exact .inl rfl
  | cons b r ih =>
    by_cases h : b = START
    · subst h; exact .inr (by simp [byteAt])
    · simpa [h] using ih

/-- Noise in front is what resync discards (43_poll.md R83). -/
theorem dropWhile_noise {noise rest : List Byte} (hn : START ∉ noise) (hr : rest = [] ∨ byteAt rest 0 = START) :
    (noise ++ rest).dropWhile (· != START) = rest := by
  induction noise with
  | nil =>
    rcases hr with rfl | hr
    · rfl
    · cases rest with
      | nil => rfl
      | cons b r =>
        have : b = START := hr
        subst this; simp
  | cons b r ih =>
    simp only [List.mem_cons, not_or] at hn
    simp [Ne.symm hn.1, ih hn.2]

/-! ## POLL (43_poll.md R81), over the window's sequence -/

/-- The declared length of a synchronised sequence. -/
def seqLength (w : List Byte) : Nat := 4 + (lengthByte w).toNat

theorem seqLength_le (w : List Byte) : seqLength w ≤ 259 := by
  have := (lengthByte w).isLt
  unfold seqLength
  omega

theorem payloadBytes_length_le (c : List Byte) : (payloadBytes c).length ≤ 255 := by
  have := (lengthByte c).isLt
  simp only [payloadBytes, List.length_take]
  omega

/-- The state a POLL leaves the window in when it has removed its candidate. -/
def State.extracted (s : State) : State := s.resynced.dropFront (seqLength s.synced)

theorem State.extracted_bytes (s : State) : s.extracted.bytes = s.synced.drop (seqLength s.synced) := by
  rw [State.extracted, State.dropFront_bytes, State.resynced_bytes]

theorem State.declaredLength_resynced {s : State} (h : 4 ≤ s.synced.length) :
    s.resynced.declaredLength = seqLength s.synced := by
  have h2 : (2 : Nat) < s.resynced.wcnt := by rw [State.resynced_wcnt]; omega
  rw [State.declaredLength, ← State.byteAt_bytes h2, State.resynced_bytes]
  rfl

/-- The candidate is the synchronised sequence's front (43_poll.md R86). -/
theorem State.candidate_resynced {s : State} (h : 4 ≤ s.synced.length) (hE : seqLength s.synced ≤ s.synced.length) :
    s.resynced.candidate = s.synced.take (seqLength s.synced) := by
  rw [State.candidate, State.declaredLength_resynced h,
    ← State.take_bytes (by rw [State.resynced_wcnt]; exact hE), State.resynced_bytes]

theorem typeByte_take {w : List Byte} {n : Nat} (h : 1 < n) : typeByte (w.take n) = typeByte w := by
  simp [typeByte, byteAt, List.getD_eq_getElem?_getD, h]

theorem lengthByte_take {w : List Byte} {n : Nat} (h : 2 < n) : lengthByte (w.take n) = lengthByte w := by
  simp [lengthByte, byteAt, List.getD_eq_getElem?_getD, h]

/-- Steps F and G on any candidate (43_poll.md R87, R88). -/
theorem pollCandidate_eq (c : List Byte) (s : State) :
    pollCandidate c s =
      if checksumOK c then .next (s.deliver (typeByte c) (payloadBytes c))
      else .next (s.countInvalid.setResult .invalid) := by
  rw [pollCandidate, runFrame_eq, receiveFrame_next (payloadBytes_length_le c), FrameKind.code_ofCode]

/-- POLL, every case of it, said over the sequence `synced`. -/
theorem execPoll_eq (x : Bool) (s : State) :
    execPoll x s =
      if s.wcnt < 4 then .next (s.setResult .deferShort)
      else if s.synced.length < 4 then .next (s.resynced.setResult .deferResync)
      else if s.synced.length < seqLength s.synced then .next (s.resynced.setResult .deferPartial)
      else if checksumOK (s.synced.take (seqLength s.synced)) then
        .next (s.extracted.deliver (typeByte s.synced) (payloadBytes (s.synced.take (seqLength s.synced))))
      else .next (s.extracted.countInvalid.setResult .invalid) := by
  by_cases h1 : s.wcnt < 4
  · rw [execPoll, MIN_FRAME_eq, if_pos h1, if_pos h1]
  rw [execPoll, MIN_FRAME_eq, if_neg h1, if_neg h1, pollSynced, MIN_FRAME_eq, State.resynced_wcnt]
  by_cases h2 : s.synced.length < 4
  · rw [if_pos h2, if_pos h2]
  have hl : 4 ≤ s.synced.length := by omega
  rw [if_neg h2, if_neg h2, State.declaredLength_resynced hl]
  by_cases h3 : s.synced.length < seqLength s.synced
  · rw [if_pos h3, if_pos h3]
  rw [if_neg h3, if_neg h3, State.candidate_resynced hl (by omega), pollCandidate_eq,
    typeByte_take (by unfold seqLength; omega), State.extracted]

end Sys2Proof.Machine
end

