-- ==== Sys2Proof/Tests/Slice0.lean ====
section
/-! SUPPORT. The model's own tests: ill-formed instructions refused, words written out from the spec's
encodings decoded, the spec's worked examples and vectors (95_test_vectors.md; each test names its own),
and a witness for the hypotheses of every statement that has any. -/

namespace Sys2Proof.Tests

open Sys2Proof Sys2Proof.Machine

/-- Z1 of 95_test_vectors.md section 0, with the window loaded. -/
def loaded (bs : List Byte) : State :=
  { State.reset with win := Memory.writeBytes [] 0 bs, wcnt := bs.length, handlerEn := true }

/-- The same with RX_CAP = 8 and a policy (95_test_vectors.md AC5 to AC7, V22). -/
def loaded8 (p : OverflowPolicy) (bs : List Byte) : State :=
  { loaded bs with cfg := ⟨8, p, 32, .int32⟩ }

/-- A field of the state after one instruction. -/
def after {α : Type} (i : Instr) (s : State) (f : State → α) : Option α := (Result.next? (exec i s)).map f

/-! ## Ill-formed instructions -/

/-- 30_encoding.md R56: no LENGTH byte expresses 256 payload bytes. -/
theorem test_oversized_payload_illformed :
    (Instr.ping (List.replicate 256 0x00#8)).wellFormed = false ∧
    (Instr.unknown 0x7F#8 (List.replicate 256 0x00#8)).wellFormed = false := by decide +kernel

/-- 30_encoding.md R60: a code the table names is not UNKNOWN. -/
theorem test_known_code_as_unknown_illformed :
    (Instr.unknown 0x01#8 []).wellFormed = false ∧ (Instr.unknown 0x23#8 []).wellFormed = false := by decide

/-- The codes of WellFormed and those of the decoder's table are the same. -/
theorem test_known_codes_are_the_tables :
    ∀ t : Byte, knownCodes.contains t = decide (FrameKind.ofCode t ≠ .unknown t) := by decide

/-! ## Decoding: the words of 30_encoding.md R55, R60, R63, R65, R67, R68 -/

theorem test_decode_push : decode (.inPort true 0xAA#8) = .ok (.push 0xAA#8) := by decide
theorem test_decode_poll :
    decode (.command 0b000#3) = .ok (.poll false) ∧ decode (.command 0b100#3) = .ok (.poll true) := by decide
theorem test_decode_clear :
    decode (.command 0b001#3) = .ok (.clear false) ∧ decode (.command 0b101#3) = .ok (.clear true) := by decide
theorem test_decode_handler :
    decode (.command 0b110#3) = .ok (.handler true) ∧ decode (.command 0b010#3) = .ok (.handler false) := by decide
theorem test_decode_reserved :
    decode (.command 0b011#3) = .ok (.reserved false) ∧ decode (.command 0b111#3) = .ok (.reserved true) := by decide
theorem test_decode_reset : decode (.rstPin true) = .ok .reset := by decide
theorem test_decode_ping :
    decode (.wire [0xAA#8, 0x01#8, 0x02#8, 0x02#8, 0x09#8, 0x08#8]) = .ok (.ping [0x02#8, 0x09#8]) := by decide
theorem test_decode_pong :
    decode (.wire [0xAA#8, 0x02#8, 0x02#8, 0x02#8, 0x09#8, 0x0B#8]) = .ok (.pong [0x02#8, 0x09#8]) := by decide
theorem test_decode_ack :
    decode (.wire [0xAA#8, 0x03#8, 0x02#8, 0x02#8, 0x09#8, 0x0A#8]) = .ok (.ack [0x02#8, 0x09#8]) := by decide
theorem test_decode_nack :
    decode (.wire [0xAA#8, 0x04#8, 0x02#8, 0x02#8, 0x09#8, 0x0D#8]) = .ok (.nack [0x02#8, 0x09#8]) := by decide
theorem test_decode_cmdSetMode :
    decode (.wire [0xAA#8, 0x10#8, 0x02#8, 0x02#8, 0x09#8, 0x19#8]) = .ok (.cmdSetMode [0x02#8, 0x09#8]) := by decide
theorem test_decode_cmdSetParam :
    decode (.wire [0xAA#8, 0x11#8, 0x02#8, 0x02#8, 0x09#8, 0x18#8]) = .ok (.cmdSetParam [0x02#8, 0x09#8]) := by decide
theorem test_decode_cmdStart :
    decode (.wire [0xAA#8, 0x12#8, 0x02#8, 0x02#8, 0x09#8, 0x1B#8]) = .ok (.cmdStart [0x02#8, 0x09#8]) := by decide
theorem test_decode_cmdStop :
    decode (.wire [0xAA#8, 0x13#8, 0x02#8, 0x02#8, 0x09#8, 0x1A#8]) = .ok (.cmdStop [0x02#8, 0x09#8]) := by decide
theorem test_decode_cmdReset :
    decode (.wire [0xAA#8, 0x14#8, 0x02#8, 0x02#8, 0x09#8, 0x1D#8]) = .ok (.cmdReset [0x02#8, 0x09#8]) := by decide
theorem test_decode_cmdReadSensor :
    decode (.wire [0xAA#8, 0x15#8, 0x02#8, 0x02#8, 0x09#8, 0x1C#8]) = .ok (.cmdReadSensor [0x02#8, 0x09#8]) := by decide
theorem test_decode_cmdSetTendons :
    decode (.wire [0xAA#8, 0x16#8, 0x02#8, 0x02#8, 0x09#8, 0x1F#8]) = .ok (.cmdSetTendons [0x02#8, 0x09#8]) := by decide
theorem test_decode_cmdSetSpool :
    decode (.wire [0xAA#8, 0x17#8, 0x02#8, 0x02#8, 0x09#8, 0x1E#8]) = .ok (.cmdSetSpool [0x02#8, 0x09#8]) := by decide
theorem test_decode_statusUpdate :
    decode (.wire [0xAA#8, 0x20#8, 0x02#8, 0x02#8, 0x09#8, 0x29#8]) = .ok (.statusUpdate [0x02#8, 0x09#8]) := by decide
theorem test_decode_sensorData :
    decode (.wire [0xAA#8, 0x21#8, 0x02#8, 0x02#8, 0x09#8, 0x28#8]) = .ok (.sensorData [0x02#8, 0x09#8]) := by decide
theorem test_decode_errorReport :
    decode (.wire [0xAA#8, 0x22#8, 0x02#8, 0x02#8, 0x09#8, 0x2B#8]) = .ok (.errorReport [0x02#8, 0x09#8]) := by decide
theorem test_decode_debugMessage :
    decode (.wire [0xAA#8, 0x23#8, 0x02#8, 0x02#8, 0x09#8, 0x2A#8]) = .ok (.debugMessage [0x02#8, 0x09#8]) := by decide
/-- CK11. -/
theorem test_decode_unknown :
    decode (.wire [0xAA#8, 0x7F#8, 0x02#8, 0x01#8, 0x02#8, 0x7E#8]) = .ok (.unknown 0x7F#8 [0x01#8, 0x02#8]) := by decide

/-- Each rejection of the decoder, by name (CK9 for the checksum). -/
theorem test_decode_rejections :
    decode (.inPort false 0x00#8) = .error .strobeLow ∧
    decode (.rstPin false) = .error .resetReleased ∧
    decode (.wire [0xAA#8, 0x01#8, 0x00#8]) = .error .tooShort ∧
    decode (.wire [0xAB#8, 0x03#8, 0x01#8, 0x05#8, 0x07#8]) = .error .noStartByte ∧
    decode (.wire [0xAA#8, 0x03#8, 0x01#8, 0x05#8]) = .error .truncated ∧
    decode (.wire [0xAA#8, 0x01#8, 0x00#8, 0x00#8]) = .error .checksumMismatch ∧
    decode (.wire [0xAA#8, 0x01#8, 0x00#8, 0x01#8, 0x33#8]) = .error .trailingBytes := by decide

/-- The numbers of spec/opcode_table.json, as log 10 and log 16 read them. -/
theorem test_table_words :
    decodeTableWord 8 0b000 = some (.poll false) ∧ decodeTableWord 8 0b001 = some (.clear false) ∧
    decodeTableWord 8 0b010 = some (.handler false) ∧ decodeTableWord 8 0b011 = some (.reserved false) ∧
    decodeTableWord 8 0x14 = some (.cmdReset []) ∧ decodeTableWord 8 0x21 = some (.sensorData []) ∧
    decodeTableWord 16 0x5501 = some (.push 0x55#8) ∧ decodeTableWord 32 0x010001AA = some (.ping []) := by decide

/-- A table row's word, placed in the reset state, runs as the first step (a frame with no sink is
counted, 95_test_vectors.md RS3). -/
theorem test_fetch_word_runs :
    (Result.next? (step (State.reset.withFetchWord 8 0x21))).map (fun s => (s.rxFrames, s.lastResult, s.wcnt)) =
      some (1, .validUnhandled, 0) ∧
    (Result.next? (step (State.reset.withFetchWord 8 0b110))).map (·.handlerEn) = some true := by decide

/-! ## Checksum and class -/

/-- CK1 to CK6. -/
theorem test_checksum_vectors :
    checksum [] = 0x00#8 ∧ checksum [0x01#8, 0x00#8] = 0x01#8 ∧ checksum [0x03#8, 0x01#8, 0x05#8] = 0x07#8 ∧
    checksum [0xFF#8, 0xFF#8] = 0x00#8 ∧ checksum [0xAA#8] = 0xAA#8 ∧
    checksum [0x04#8, 0x02#8, 0x01#8] = 0x07#8 := by decide

/-- S1, S2, CK11, CK13. -/
theorem test_frame_builder_vectors :
    buildFrame 0x01#8 [] = some [0xAA#8, 0x01#8, 0x00#8, 0x01#8] ∧
    buildFrame 0x03#8 [0x05#8] = some [0xAA#8, 0x03#8, 0x01#8, 0x05#8, 0x07#8] ∧
    buildFrame 0x7F#8 [0x01#8, 0x02#8] = some [0xAA#8, 0x7F#8, 0x02#8, 0x01#8, 0x02#8, 0x7E#8] ∧
    buildFrame 0x01#8 (List.replicate 256 0x00#8) = none := by decide +kernel

/-- The boundary values of section 2.5. -/
theorem test_class_boundaries :
    ([0x00#8, 0x01#8, 0x04#8, 0x05#8, 0x0F#8, 0x10#8, 0x17#8].map fun t => (classOf t).code) =
      [0, 1, 1, 0, 0, 2, 2] ∧
    ([0x18#8, 0x1F#8, 0x20#8, 0x23#8, 0x24#8, 0xAA#8, 0xFF#8].map fun t => (classOf t).code) =
      [0, 0, 3, 3, 0, 0, 0] := by decide

/-! ## One step each (95_test_vectors.md sections 2.2 to 2.6) -/

/-- AC2, and AC8: nothing but an append. -/
theorem test_push_appends :
    after (.push 0x01#8) (loaded [0x00#8, 0xAA#8]) State.bytes = some [0x00#8, 0xAA#8, 0x01#8] ∧
    after (.push 0x33#8) (loaded [0xAA#8, 0x01#8, 0x00#8, 0x01#8]) (fun s => (s.wcnt, s.rxFrames, s.events)) =
      some (5, 0, []) := by decide

/-- AC5 (the counter wraps) and AC6 (BACKPRESSURE takes nothing). -/
theorem test_push_full :
    after (.push 0x01#8) { loaded8 .drop (List.replicate 8 0x00#8) with rxDropped := 2 ^ 32 - 1 }
      (fun s => (s.wcnt, s.rxDropped)) = some (8, 0) ∧
    after (.push 0x01#8) (loaded8 .backpressure (List.replicate 8 0x00#8)) (fun s => (s.wcnt, s.rxDropped)) =
      some (8, 0) := by decide

/-- V3, V5, V6, V7 and V11's resync. -/
theorem test_poll_defers :
    after (.poll false) (loaded [0x11#8, 0x22#8, 0x33#8]) (fun s => (s.bytes, s.lastResult)) =
      some ([0x11#8, 0x22#8, 0x33#8], .deferShort) ∧
    after (.poll false) (loaded [0x11#8, 0x22#8, 0x33#8, 0x44#8, 0xAA#8, 0x01#8])
      (fun s => (s.bytes, s.lastResult)) = some ([0xAA#8, 0x01#8], .deferResync) ∧
    after (.poll true) (loaded [0x00#8, 0x00#8, 0x00#8, 0xAA#8]) (fun s => (s.bytes, s.lastResult)) =
      some ([0xAA#8], .deferResync) ∧
    after (.poll false) (loaded [0xAA#8, 0x03#8, 0x01#8, 0x05#8]) (fun s => (s.bytes, s.lastResult)) =
      some ([0xAA#8, 0x03#8, 0x01#8, 0x05#8], .deferPartial) := by decide

/-- S5, V9, V11, V12, V18. -/
theorem test_poll_extracts :
    after (.poll false) (loaded [0x00#8, 0x00#8, 0xAA#8, 0x01#8, 0x00#8, 0x01#8])
      (fun s => (s.wcnt, s.rxFrames, s.lastResult, s.events)) =
        some (0, 1, .validDispatched, [⟨0x01#8, 0x00#8, []⟩]) ∧
    after (.poll false) (loaded [0xAA#8, 0x01#8, 0x00#8, 0x00#8]) (fun s => (s.wcnt, s.rxInvalid, s.lastResult)) =
      some (0, 1, .invalid) ∧
    after (.poll false) (loaded [0x55#8, 0xAA#8, 0xAA#8, 0x01#8, 0x00#8, 0x01#8])
      (fun s => (s.wcnt, s.rxInvalid, s.lastResult)) = some (0, 1, .invalid) ∧
    after (.poll false) (loaded [0xAA#8, 0xAA#8, 0x00#8, 0xAA#8]) (fun s => (s.dspType, s.outputs.dspClass)) =
      some (0xAA#8, 0) ∧
    after (.poll false) (loaded [0xAA#8, 0x03#8, 0x01#8, 0x05#8, 0x07#8, 0xAA#8, 0x01#8, 0x00#8, 0x01#8])
      (fun s => (s.bytes, s.dspFrame)) = some ([0xAA#8, 0x01#8, 0x00#8, 0x01#8], [0x05#8]) := by decide

/-- CT1 and CT3: only WCNT changes, and cmd[2] is ignored. -/
theorem test_clear :
    after (.clear false) { loaded [0xAA#8, 0x03#8, 0x01#8, 0x05#8, 0x07#8] with rxFrames := 4, lastResult := .invalid }
      (fun s => (s.wcnt, s.rxFrames, s.lastResult, s.handlerEn)) = some (0, 4, .invalid, true) ∧
    after (.clear true) (loaded [0x55#8]) State.wcnt = some 0 := by decide

/-- CT4, CT5. -/
theorem test_handler :
    after (.handler true) State.reset (fun s => (s.handlerEn, s.lastResult)) = some (true, .none) ∧
    after (.handler false) (loaded []) State.handlerEn = some false := by decide

/-- CT8. -/
theorem test_reserved : after (.reserved true) (loaded [0xAA#8, 0x01#8]) id = some (loaded [0xAA#8, 0x01#8]) := by decide

/-- RS1: but for WIN, which RESET does not write, and the events, the reset state. -/
theorem test_reset :
    after .reset { loaded [0xAA#8] with rxFrames := 9, rxInvalid := 3, rxDropped := 7, lastResult := .invalid,
                                        dspType := 0x21#8, dspLen := 0x05#8, dspPayload := [(0, 0x02#8)] }
      (fun s => { s with win := [] }) = some State.reset := by decide

/-- DV1's second dispatch: bytes past DSP_LEN keep the earlier frame's (45_dispatch.md R102). -/
theorem test_ping_keeps_stale_payload :
    after (.ping []) { loaded [] with dspType := 0x03#8, dspLen := 0x01#8, dspPayload := [(0, 0x05#8)] }
      (fun s => (s.dspType, s.dspLen, s.dspPayloadOut 0, s.outputs.dspClass)) =
        some (0x01#8, 0x00#8, 0x05#8, 1) := by decide

/-- DV2. -/
theorem test_sensorData_fills_registers :
    after (.sensorData [0x02#8, 0x00#8, 0x00#8, 0x80#8, 0x3F#8]) (loaded [])
      (fun s => (s.dspType, s.dspLen, s.dspFrame, s.outputs.dspClass)) =
        some (0x21#8, 0x05#8, [0x02#8, 0x00#8, 0x00#8, 0x80#8, 0x3F#8], 3) := by decide

/-- DV4: dispatched whatever its payload length (45_dispatch.md R106). -/
theorem test_cmdSetParam_short_payload :
    after (.cmdSetParam []) (loaded []) (fun s => (s.lastResult, s.events)) =
      some (.validDispatched, [⟨0x11#8, 0x00#8, []⟩]) := by decide

/-- 30_encoding.md R61: FSV does not act on a CMD_RESET frame. -/
theorem test_cmdReset_does_not_reset :
    after (.cmdReset []) { loaded [0x55#8] with rxInvalid := 2 } (fun s => (s.wcnt, s.rxInvalid, s.handlerEn)) =
      some (1, 2, true) := by decide

/-- CT10. -/
theorem test_outputs :
    (loaded [0xAA#8, 0x01#8]).outputs = ⟨2, false, true, 0, 0, 0, true, 0, 0x00#8, 0x00#8, 0⟩ := by decide

/-- AC9: with reset asserted in_ready is 0, and a byte and a command of that cycle are not performed. -/
theorem test_reset_pin_overrides :
    let s := { loaded [0x11#8] with ports := [⟨true, true, 0x22#8, true, 0b110#3⟩] }
    s.inReady = false ∧
    (Result.next? (step s)).map (fun t => (t.wcnt, t.handlerEn, t.ports)) = some (0, false, []) := by decide

/-- 20_memory.md R49: the byte first, then the command of its cycle (here CLEAR, 44_control.md R95). -/
theorem test_byte_before_command :
    let s := { loaded [0x11#8] with ports := [⟨false, true, 0x22#8, true, 0b001#3⟩] }
    (Result.next? (step s)).map (fun t => (t.wcnt, t.ports)) =
      some (2, [⟨false, false, 0x22#8, true, 0b001#3⟩]) := by decide

/-- The text forms of 30_encoding.md R68 and R69. -/
theorem test_program_text :
    assemble ["handler on ; register the sink".toList, "push 0xAA 3 1".toList, "poll 2".toList] =
      some [.handler true, .push 0xAA#8, .push 0x03#8, .push 0x01#8, .poll false, .poll false] ∧
    assemble ["frame PING []".toList] = some [.push 0xAA#8, .push 0x01#8, .push 0x00#8, .push 0x01#8] ∧
    assemble ["jump 3".toList] = none := by decide

/-- 30_encoding.md R68: numbers are 0xNN or decimal, and the operand of `reserved` is 0 or 1 (logs 20, 21). -/
theorem test_program_numbers :
    assemble ["reserved 0x01".toList, "reserved 0".toList, "push 13".toList] =
      some [.reserved true, .reserved false, .push 0x0D#8] ∧
    assemble ["reserved 2".toList] = none ∧ assemble ["push AA".toList] = none := by decide

/-! ## Witnesses: the hypotheses of each statement, met together

One theorem a statement, named after it: concrete states and operands that meet its hypotheses, clause
by clause, at the ends of their ranges. -/

/-- A payload as long as LENGTH can say (30_encoding.md R56). -/
def longest : List Byte := List.replicate 255 0x00#8

/-- Cycles at the pins. -/
def presented (s : State) (ps : List PortCycle) : State := { s with ports := ps }

theorem witness_ChecksumIsOrderFreeXorFold :
    [0x01#8, 0x02#8].Perm [0x02#8, 0x01#8] ∧ [0x07#8, 0x01#8, 0x07#8].count 0x07#8 % 2 = 0 ∧
    ([] : List Byte).count 0x07#8 % 2 = 0 := by decide

theorem witness_ChecksumAlgebraicLaws : [0x01#8, 0x02#8, 0x02#8].Perm [0x02#8, 0x01#8, 0x02#8] := by decide

theorem witness_ValidityTestComparesChecksumByte :
    ([] : List Byte).length = (0x00#8).toNat ∧ longest.length = (0xFF#8).toNat := by decide +kernel

theorem witness_FrameBuilderMakesWellFormedFrames :
    255 < (0x00#8 :: longest).length ∧ longest.length ≤ 255 ∧ ([] : List Byte).length ≤ 255 := by decide +kernel

theorem witness_ChecksumDetectsExactlyNonCancellingDeltas :
    let c := frameBytes 0x03#8 [0x05#8, 0x06#8]
    let d := [0x00#8, 0x01#8, 0x00#8, 0x01#8, 0x00#8, 0x00#8]
    IsCandidate c ∧ checksumOK c = true ∧ d.length = c.length ∧ byteAt d 0 = 0x00#8 ∧ byteAt d 2 = 0x00#8 ∧
    1 < c.length ∧ 0x04#8 ≠ byteAt c 1 ∧ 5 < c.length ∧ 0xFF#8 ≠ byteAt c 5 := by decide

theorem witness_DecodeOfEncodeIsIdentity :
    (Instr.ping []).wellFormed = true ∧ (Instr.sensorData longest).wellFormed = true ∧
    (Instr.unknown 0xAA#8 longest).wellFormed = true ∧ (Instr.push 0xFF#8).wellFormed = true ∧
    (Instr.poll true).wellFormed = true ∧ (Instr.clear true).wellFormed = true ∧
    (Instr.handler true).wellFormed = true ∧ (Instr.reserved true).wellFormed = true ∧
    Instr.reset.wellFormed = true := by decide +kernel

theorem witness_EncodeOfDecodeIsIdentity :
    decode (.wire (frameBytes 0x10#8 longest)) = .ok (.cmdSetMode longest) ∧
    decode (.command 0b100#3) = .ok (.poll true) := by decide +kernel

theorem witness_DecoderRejectsOnlyBadChecksums :
    let c := frameBytes 0x21#8 longest
    IsCandidate c ∧ checksumOK c = true ∧ IsCandidate [0xAA#8, 0x01#8, 0x00#8, 0x00#8] ∧
    checksumOK [0xAA#8, 0x01#8, 0x00#8, 0x00#8] = false := by decide +kernel

theorem witness_PseudoOperationsExpand : longest.length ≤ 255 ∧ 255 < (0x00#8 :: longest).length := by decide +kernel

theorem witness_InvariantHoldsAtReset :
    Config.ok ⟨4, .backpressure, 0, .float32⟩ = true ∧ Config.ok Config.default = true := by decide

/-- A state that no reset leaves: bytes buffered, a frame dispatched, a command waiting. -/
def midRun : State :=
  { loaded [0x55#8, 0xAA#8, 0x01#8] with
    rxFrames := 1, rxDropped := 2 ^ 32 - 1, lastResult := .validDispatched, dspType := 0x03#8, dspLen := 0x01#8,
    dspPayload := [(0, 0x05#8)], ports := [pollCycle], events := [⟨0x03#8, 0x01#8, [0x05#8]⟩] }

theorem witness_EveryStepKeepsInvariant : midRun.Inv ∧ ∃ t, step midRun = .next t :=
  ⟨⟨by decide, by decide, by decide, by decide, by decide, by decide, by decide, by decide, by decide,
    by decide, by decide⟩, _, rfl⟩

theorem witness_AcceptStoresOrDropsTheByte :
    (loaded8 .drop (List.replicate 7 0x00#8)).wcnt < (loaded8 .drop []).cfg.rxCap ∧
    (loaded8 .drop []).cfg.rxCap ≤ (loaded8 .drop (List.replicate 8 0x00#8)).wcnt ∧
    (loaded8 .drop []).cfg.ovfPolicy = .drop ∧
    (loaded8 .backpressure []).cfg.rxCap ≤ (loaded8 .backpressure (List.replicate 8 0x00#8)).wcnt ∧
    (loaded8 .backpressure []).cfg.ovfPolicy = .backpressure := by decide

theorem witness_InReadyFollowsPolicyAndReset :
    (presented State.reset [⟨true, false, 0x00#8, false, 0b000#3⟩]).rstAsserted = true ∧
    State.reset.rstAsserted = false ∧ State.reset.cfg.ovfPolicy = .drop ∧
    (loaded8 .backpressure (List.replicate 7 0x00#8)).rstAsserted = false ∧
    (loaded8 .backpressure (List.replicate 7 0x00#8)).inReady = true ∧
    (loaded8 .backpressure (List.replicate 8 0x00#8)).inReady = false := by decide

theorem witness_DropFrontCompactsTheWindow :
    0 ≤ (loaded [0x11#8, 0x22#8]).wcnt ∧ 1 < (loaded [0x11#8, 0x22#8]).wcnt - 0 ∧
    2 ≤ (loaded [0x11#8, 0x22#8]).wcnt := by decide

/-- A ring whose sequence runs over its end presents a window. -/
theorem witness_RingBufferPresentsTheSameSequence :
    let s := loaded8 .drop [0x11#8, 0x22#8]
    (RingWindow.mk [(0, 0x22#8), (7, 0x11#8)] 7 2).Presents s ∧ s.wcnt < s.cfg.rxCap ∧ 2 ≤ s.wcnt :=
  ⟨⟨by decide, by decide, by decide⟩, by decide, by decide⟩

theorem witness_BytesPastWcntAreUnobservable :
    let s := loaded [0xAA#8, 0x01#8]
    State.SameVisible s { s with win := s.win ++ [(2, 0x77#8)] } ∧ s ≠ { s with win := s.win ++ [(2, 0x77#8)] } :=
  ⟨⟨by decide, by decide⟩, by decide⟩

theorem witness_PollDefersWhenShort :
    (loaded []).wcnt < 4 ∧ (loaded [0xAA#8, 0x01#8, 0x00#8]).wcnt < 4 := by decide

/-- Nothing left, and three bytes left. -/
theorem witness_PollDiscardsNoiseThenDefers :
    let s := loaded [0x11#8, 0x22#8, 0x33#8, 0x44#8]
    let t := loaded [0x11#8, 0xAA#8, 0x01#8, 0x00#8]
    (4 ≤ s.wcnt ∧ s.bytes = [0x11#8, 0x22#8, 0x33#8, 0x44#8] ++ [] ∧ START ∉ [0x11#8, 0x22#8, 0x33#8, 0x44#8]) ∧
    (4 ≤ t.wcnt ∧ t.bytes = [0x11#8] ++ [0xAA#8, 0x01#8, 0x00#8] ∧ START ∉ [0x11#8] ∧
      byteAt [0xAA#8, 0x01#8, 0x00#8] 0 = START ∧ [0xAA#8, 0x01#8, 0x00#8].length < 4) := by decide

/-- Four bytes of five, and all but one of the longest frame. -/
theorem witness_PollDefersOnPartialFrame :
    let r := [0xAA#8, 0x03#8, 0x01#8, 0x05#8]
    let q := (frameBytes 0x21#8 longest).take 258
    ((loaded r).bytes = [] ++ r ∧ byteAt r 0 = START ∧ 4 ≤ r.length ∧ r.length < 4 + (lengthByte r).toNat) ∧
    ((loaded (0x55#8 :: q)).bytes = [0x55#8] ++ q ∧ START ∉ [0x55#8] ∧ byteAt q 0 = START ∧ 4 ≤ q.length ∧
      q.length < 4 + (lengthByte q).toNat) := by decide +kernel

/-- No payload with nothing around the frame, and the longest payload with noise and a tail. -/
theorem witness_PollDispatchesValidFrame :
    let f := frameBytes 0x7F#8 longest
    ((loaded (frameBytes 0x01#8 [])).bytes = [] ++ frameBytes 0x01#8 [] ++ [] ∧ (loaded []).handlerEn = true) ∧
    ((loaded ([0x55#8] ++ f ++ [0xAA#8])).bytes = [0x55#8] ++ f ++ [0xAA#8] ∧ START ∉ [0x55#8] ∧
      longest.length ≤ 255) := by decide +kernel

theorem witness_PollCountsUnhandledFrame :
    let s := { loaded ([0x55#8] ++ frameBytes 0x21#8 longest ++ [0xAA#8]) with handlerEn := false }
    s.bytes = [0x55#8] ++ frameBytes 0x21#8 longest ++ [0xAA#8] ∧ START ∉ [0x55#8] ∧ longest.length ≤ 255 ∧
    s.handlerEn = false := by decide +kernel

theorem witness_PollCountsInvalidCandidate :
    let c := [0xAA#8, 0x01#8, 0x00#8, 0x00#8]
    (loaded ([0x55#8] ++ c ++ [0x01#8])).bytes = [0x55#8] ++ c ++ [0x01#8] ∧ START ∉ [0x55#8] ∧ IsCandidate c ∧
    checksumOK c = false := by decide

theorem witness_PollRunsTheDecodedFrame :
    let s := loaded ([0x55#8] ++ frameBytes 0x04#8 longest ++ [0x01#8])
    4 ≤ s.wcnt ∧ decodeFrame (s.bytes.dropWhile (· != START)) = .ok (.nack longest, [0x01#8]) := by decide +kernel

/-- Each outcome that a clause is about is reached. -/
theorem witness_PollRemovesBytesOrProvesNoFrame :
    after (.poll false) (loaded [0x11#8, 0x22#8, 0x33#8]) State.lastResult = some .deferShort ∧
    after (.poll false) (loaded [0x11#8, 0xAA#8, 0x01#8, 0x00#8]) State.lastResult = some .deferResync ∧
    after (.poll false) (loaded [0xAA#8, 0x03#8, 0x01#8, 0x05#8]) State.lastResult = some .deferPartial ∧
    after (.poll false) (loaded [0xAA#8, 0x01#8, 0x00#8, 0x00#8]) (fun t => t.lastResult.isDefer) = some false := by
  decide

/-- An empty window, and one whose bytes take several POLLs. -/
theorem witness_PollsReachAFixedPoint :
    Result.next? (runOps (List.replicate 0 (.poll false)) (loaded [])) = some (loaded []) ∧
    (Result.next? (runOps (List.replicate 9 (.poll false))
      (loaded [0x55#8, 0xAA#8, 0x01#8, 0x00#8, 0x00#8, 0xAA#8, 0x03#8, 0x01#8, 0x05#8]))).map State.bytes =
        some [0xAA#8, 0x03#8, 0x01#8, 0x05#8] := by decide

theorem witness_FullWindowAlwaysProgresses :
    let s := { loaded [] with win := Memory.writeBytes [] 0 (frameBytes 0x21#8 longest), wcnt := 259 }
    259 ≤ s.cfg.rxCap ∧ s.wcnt = s.cfg.rxCap := by decide

/-- V22's window, and every operation but CLEAR and RESET. -/
theorem witness_OversizedFrameStallsUntilClear :
    let s := loaded8 .drop [0xAA#8, 0x01#8, 0x0A#8, 0x00#8, 0x00#8, 0x00#8, 0x00#8, 0x00#8]
    4 ≤ s.cfg.rxCap ∧ s.wcnt = s.cfg.rxCap ∧ byteAt s.bytes 0 = START ∧
    s.cfg.rxCap < 4 + (lengthByte s.bytes).toNat ∧
    ∀ i ∈ [Instr.poll false, .push 0xAA#8, .handler false, .reserved true, .poll true],
      i.isOperation = true ∧ i.isCancel = false := by decide

theorem witness_NoiseChangesNoFrameCounter :
    let ops := [Instr.push 0x11#8, .poll false, .push 0x22#8, .push 0x33#8, .poll true]
    START ∉ (loaded [0x00#8]).bytes ∧ START ∉ pushedBytes ops ∧ ∀ i ∈ ops, i.isDelivery = true := by decide

/-- S2 in three chunks behind a byte of noise, and a frame without payload in one piece. -/
theorem witness_FragmentationDoesNotMatter :
    let s := loaded [0x55#8]
    let f := frameBytes 0x03#8 [0x05#8]
    let ops := [Instr.push 0xAA#8, .poll false, .push 0x03#8, .push 0x01#8, .poll true, .poll false, .push 0x05#8]
    let g := frameBytes 0x01#8 []
    let one := [Instr.push 0xAA#8, .push 0x01#8, .push 0x00#8]
    (START ∉ s.bytes ∧ wireWellFormed f = true ∧ (∀ i ∈ ops, i.isDelivery = true) ∧
      pushedBytes (ops ++ [.push 0x07#8]) = f ∧ noByteLost (ops ++ [.push 0x07#8]) s = true ∧
      ops = [.push 0xAA#8, .poll false] ++ ops.drop 2) ∧
    (START ∉ State.reset.bytes ∧ wireWellFormed g = true ∧ (∀ i ∈ one, i.isDelivery = true) ∧
      pushedBytes (one ++ [.push 0x01#8]) = g ∧ noByteLost (one ++ [.push 0x01#8]) State.reset = true) := by decide

/-- Two frames with noise between them and the start of a third behind them; and no frame. -/
theorem witness_FramesAreDispatchedInArrivalOrder :
    let fs : List (List Byte × Byte × List Byte) := [([], 0x03#8, [0x05#8]), ([0x11#8], 0x01#8, [])]
    let s := loaded (fs.flatMap (fun f => f.1 ++ frameBytes f.2.1 f.2.2) ++ [0xAA#8])
    (∀ f ∈ fs, START ∉ f.1 ∧ f.2.2.length ≤ 255) ∧
    s.bytes = fs.flatMap (fun f => f.1 ++ frameBytes f.2.1 f.2.2) ++ [0xAA#8] ∧ s.handlerEn = true ∧ fs ≠ [] ∧
    (loaded [0x01#8]).bytes =
      ([] : List (List Byte × Byte × List Byte)).flatMap (fun f => f.1 ++ frameBytes f.2.1 f.2.2) ++ [0x01#8] := by
  decide

theorem witness_ValidatedFrameIsDispatchedUnmodified :
    (Instr.ping []).frame? = some (.ping, []) ∧
    (Instr.unknown 0x7F#8 longest).frame? = some (.unknown 0x7F#8, longest) ∧ longest.length ≤ 255 ∧
    (loaded []).handlerEn = true := by decide +kernel

theorem witness_ValidatedFrameWithoutSinkIsCountedOnly :
    (Instr.debugMessage longest).frame? = some (.debugMessage, longest) ∧ longest.length ≤ 255 ∧
    State.reset.handlerEn = false := by decide +kernel

theorem witness_OversizedFrameFormIsRefused :
    (Instr.ack (0x00#8 :: longest)).frame? = some (.ack, 0x00#8 :: longest) ∧ 255 < (0x00#8 :: longest).length := by
  decide +kernel

/-- The six operations; the last one is RESET. -/
def sixOperations : List Instr :=
  [.push 0xAA#8, .poll false, .clear true, .handler true, .reserved false, .reset]

theorem witness_OnlyDispatchingPollGivesAnEvent :
    (∀ i ∈ sixOperations, i.isOperation = true) ∧
    after (.poll true) (loaded [0xAA#8, 0x01#8, 0x00#8, 0x01#8]) State.lastResult = some .validDispatched := by decide

theorem witness_DspRegistersHoldTheLastFrame :
    ∀ i ∈ sixOperations.dropLast, i.isOperation = true ∧ i ≠ .reset := by decide

theorem witness_CountersStepByOneAndAlone :
    ∀ i ∈ sixOperations.dropLast, i.isOperation = true ∧ i ≠ .reset := by decide

/-- Each counter is seen to move. -/
theorem witness_CountersHaveTheirOneWriter :
    after (.poll false) (loaded [0xAA#8, 0x01#8, 0x00#8, 0x01#8]) State.rxFrames = some 1 ∧
    after (.poll false) (loaded [0xAA#8, 0x01#8, 0x00#8, 0x00#8]) State.rxInvalid = some 1 ∧
    after (.push 0x00#8) (loaded8 .drop (List.replicate 8 0x00#8)) State.rxDropped = some 1 := by decide

theorem witness_LastResultWrittenByPollAndResetOnly : ∀ i ∈ sixOperations, i.isOperation = true := by decide

theorem witness_HandlerEnableWrittenBySetHandlerAndResetOnly :
    ∀ i ∈ sixOperations, i.isOperation = true := by decide

theorem witness_ParametersNeverChange :
    (∀ i ∈ sixOperations, i.wellFormed = true) ∧ (Instr.ping longest).wellFormed = true := by decide +kernel

/-- A byte, a command and the reset pin, each with another cycle behind it. -/
theorem witness_StepRunsTheDecodedInput :
    ∀ w ∈ [PortWord.inPort true 0xAA#8, .command 0b111#3, .rstPin true],
      ∃ i p, State.reset.cfg.ok = true ∧ decode w = .ok i ∧ w.cycles = [p] ∧ i.isOperation = true ∧
        (presented State.reset [p, pollCycle]).ports = p :: [pollCycle] := by
  intro w h
  simp only [List.mem_cons, List.not_mem_nil, or_false] at h
  rcases h with rfl | rfl | rfl
  · exact ⟨.push 0xAA#8, _, by decide, by decide, rfl, by decide, rfl⟩
  · exact ⟨.reserved true, _, by decide, by decide, rfl, by decide, rfl⟩
  · exact ⟨.reset, _, by decide, by decide, rfl, by decide, rfl⟩

theorem witness_ByteIsPerformedBeforeCommand :
    let p : PortCycle := ⟨false, true, 0x22#8, true, 0b001#3⟩
    let s := presented (loaded [0x11#8]) [p, pollCycle]
    s.cfg.ok = true ∧ s.ports = p :: [pollCycle] ∧ p.rst = false ∧ p.inValid = true ∧ p.cmdValid = true := by decide

theorem witness_ResetOverridesByteAndCommand :
    let p : PortCycle := ⟨true, true, 0x22#8, true, 0b110#3⟩
    let s := presented (loaded [0x11#8]) [p, pollCycle]
    s.cfg.ok = true ∧ s.ports = p :: [pollCycle] ∧ p.rst = true := by decide

theorem witness_NothingPresentedNothingDone :
    State.reset.cfg.ok = true ∧ State.reset.ports = [] ∧
    (presented State.reset [PortCycle.idle, pollCycle]).ports = PortCycle.idle :: [pollCycle] ∧
    PortCycle.idle.rst = false ∧ PortCycle.idle.inValid = false ∧ PortCycle.idle.cmdValid = false := by decide

theorem witness_StepsFollowTheTotalOrder :
    State.reset.cfg.ok = true ∧ ∀ i ∈ sixOperations, i.isOperation = true := by decide

theorem witness_TooSmallCapacityIsRefused :
    { State.reset with cfg := ⟨3, .drop, 32, .int32⟩ }.cfg.rxCap < 4 ∧
    Config.ok ⟨3, .drop, 32, .int32⟩ = false ∧ Config.ok ⟨4, .drop, 32, .int32⟩ = true := by decide

theorem witness_EveryOperationCompletes :
    (Instr.cmdSetSpool longest).wellFormed = true ∧ (presented State.reset [pollCycle]).cfg.ok = true := by
  decide +kernel

end Sys2Proof.Tests
end

/-! ## Scope: what a step does with what is presented (00_scope.md) -/

namespace Sys2Proof.Machine

/-! ### Fetch and step, case by case -/

theorem fetch_of_ports_nil {s : State} (h : s.ports = []) : fetch s = .idle s := by
  rw [fetch, h]

/-- A cycle without reset, byte or command is passed over (00_scope.md R19, log 6). -/
theorem fetch_of_cycle_idle {s : State} {p : PortCycle} {rest : List PortCycle} (h : s.ports = p :: rest)
    (hr : p.rst = false) (hb : p.inValid = false) (hc : p.cmdValid = false) :
    fetch s = .idle { s with ports := rest } := by
  simp [fetch, h, hr, hb, hc]

theorem step_of_fetch_idle {s s' : State} (hok : s.cfg.ok = true) (h : fetch s = .idle s') :
    step s = .next s' := by
  rw [step, if_pos hok, h]

theorem step_of_not_ok {s : State} (hok : ¬ s.cfg.ok = true) : step s = .refused .rxCapBelowMinFrame := by
  rw [step, if_neg hok]

/-! ### The state a machine is built with -/

/-- DSP_PAYLOAD reads 0x00 at every index of an initial state (10_state.md R37). -/
@[simp] theorem State.dspPayloadOut_init (c : Config) (i : Fin 255) : (State.init c).dspPayloadOut i = 0x00#8 :=
  Memory.read_nil i

/-! ### The obligations -/

/-- Settles O15: the fields are those of `State.init` and `Config.default`; the payload's bytes are all
unlisted. -/
theorem resetStateHoldsTableValues : Obligations.ResetStateHoldsTableValues := by
  refine ⟨rfl, rfl, rfl, rfl, rfl, rfl, rfl, rfl, fun i => ?payload, rfl, rfl, rfl⟩
  case payload => exact State.dspPayloadOut_init Config.default i

/-- Settles O57: in both cases the fetch is idle, and a step then answers the fetched state. -/
theorem nothingPresentedNothingDone : Obligations.NothingPresentedNothingDone := by
  intro s hok
  constructor
  · intro hnil
    exact step_of_fetch_idle hok (fetch_of_ports_nil hnil)
  · intro p rest hports hrst hvalid hcmd
    exact step_of_fetch_idle hok (fetch_of_cycle_idle hports hrst hvalid hcmd)

/-- Settles O59: a capacity below MIN_FRAME makes the configuration illegal, which a step refuses. -/
theorem tooSmallCapacityIsRefused : Obligations.TooSmallCapacityIsRefused := by
  intro s hcap
  have hok : ¬ s.cfg.ok = true := fun h => absurd (Config.ok_iff.1 h) (by omega)
  exact step_of_not_ok hok

end Sys2Proof.Machine

/-! ## State: what one instruction does, as a relation (10_state.md) -/

namespace Sys2Proof

/-! ### Operations and frames -/

/-- Case analysis on an instruction: one of the six operations, or a frame of some kind. -/
theorem Instr.operationOrFrame {P : Instr → Prop} (push : ∀ b, P (.push b)) (poll : ∀ x, P (.poll x))
    (clear : ∀ x, P (.clear x)) (handler : ∀ en, P (.handler en)) (reserved : ∀ x, P (.reserved x))
    (reset : P .reset) (frame : ∀ k p, P (.ofFrame k p)) (i : Instr) : P i :=
  Instr.casesOn i push poll clear handler reserved reset
    (frame .ping) (frame .pong) (frame .ack) (frame .nack)
    (frame .cmdSetMode) (frame .cmdSetParam) (frame .cmdStart) (frame .cmdStop)
    (frame .cmdReset) (frame .cmdReadSensor) (frame .cmdSetTendons) (frame .cmdSetSpool)
    (frame .statusUpdate) (frame .sensorData) (frame .errorReport) (frame .debugMessage)
    (fun t => frame (.unknown t))

@[simp] theorem Instr.isOperation_ofFrame (k : FrameKind) (p : List Byte) :
    (Instr.ofFrame k p).isOperation = false := by
  simp [Instr.isOperation]

/-- The instruction carries no payload longer than LENGTH can say (30_encoding.md R56). -/
def Instr.PayloadFits (i : Instr) : Prop := ∀ k p, i.frame? = some (k, p) → p.length ≤ 255

theorem Instr.payloadFits_of_isOperation {i : Instr} (h : i.isOperation = true) : i.PayloadFits := by
  intro k p hframe
  simp [Instr.isOperation, hframe] at h

theorem Instr.payloadFits_of_wellFormed {i : Instr} (h : i.wellFormed = true) : i.PayloadFits := by
  intro k p hframe
  simp only [Instr.wellFormed, hframe, Bool.and_eq_true] at h
  exact of_decide_eq_true h.2

/-- Every command word is one of the operations (30_encoding.md R64). -/
theorem decodeCommand_isOperation (w : BitVec 3) : (decodeCommand w).isOperation = true := by
  revert w; decide

end Sys2Proof

namespace Sys2Proof.Machine

/-! ### The composed updates, field by field -/

/-- Resync writes the window only (43_poll.md R83). -/
@[simp] theorem State.resynced_frame (s : State) :
    s.resynced.cfg = s.cfg ∧ s.resynced.rxFrames = s.rxFrames ∧ s.resynced.rxInvalid = s.rxInvalid ∧
    s.resynced.rxDropped = s.rxDropped ∧ s.resynced.handlerEn = s.handlerEn ∧
    s.resynced.lastResult = s.lastResult ∧ s.resynced.dspType = s.dspType ∧ s.resynced.dspLen = s.dspLen ∧
    s.resynced.dspPayload = s.dspPayload ∧ s.resynced.ports = s.ports ∧ s.resynced.events = s.events := by
  simp [State.resynced]

/-- Removing the candidate writes the window only (43_poll.md R86). -/
@[simp] theorem State.extracted_frame (s : State) :
    s.extracted.cfg = s.cfg ∧ s.extracted.rxFrames = s.rxFrames ∧ s.extracted.rxInvalid = s.rxInvalid ∧
    s.extracted.rxDropped = s.rxDropped ∧ s.extracted.handlerEn = s.handlerEn ∧
    s.extracted.lastResult = s.lastResult ∧ s.extracted.dspType = s.dspType ∧ s.extracted.dspLen = s.dspLen ∧
    s.extracted.dspPayload = s.dspPayload ∧ s.extracted.ports = s.ports ∧ s.extracted.events = s.events := by
  simp [State.extracted]

/-- What a delivery does whether or not a sink is registered (43_poll.md R87). -/
@[simp] theorem State.deliver_frame (s : State) (t : Byte) (p : List Byte) :
    (s.deliver t p).cfg = s.cfg ∧ (s.deliver t p).win = s.win ∧ (s.deliver t p).wcnt = s.wcnt ∧
    (s.deliver t p).rxFrames = bump s.rxFrames s.cfg.cntW ∧ (s.deliver t p).rxInvalid = s.rxInvalid ∧
    (s.deliver t p).rxDropped = s.rxDropped ∧ (s.deliver t p).handlerEn = s.handlerEn ∧
    (s.deliver t p).ports = s.ports := by
  cases h : s.handlerEn with
  | true => simp [State.deliver_on h, h]
  | false => simp [State.deliver_off h, h]

theorem State.deliver_lastResult (s : State) (t : Byte) (p : List Byte) :
    (s.deliver t p).lastResult = if s.handlerEn then .validDispatched else .validUnhandled := by
  cases h : s.handlerEn with
  | true => simp [State.deliver_on h]
  | false => simp [State.deliver_off h]

theorem State.deliver_lastResult_cases (s : State) (t : Byte) (p : List Byte) :
    (s.deliver t p).lastResult = .validDispatched ∨ (s.deliver t p).lastResult = .validUnhandled := by
  rw [State.deliver_lastResult]
  cases s.handlerEn with
  | true => exact .inl rfl
  | false => exact .inr rfl

/-- A delivery without a sink leaves the DSP registers (45_dispatch.md R105). -/
theorem State.deliver_dsp_of_not_dispatched {s : State} {t : Byte} {p : List Byte}
    (h : (s.deliver t p).lastResult ≠ .validDispatched) :
    (s.deliver t p).dspType = s.dspType ∧ (s.deliver t p).dspLen = s.dspLen ∧
      (s.deliver t p).dspPayload = s.dspPayload := by
  cases hen : s.handlerEn with
  | true => simp [State.deliver_lastResult, hen] at h
  | false => simp [State.deliver_off hen]

/-! ### ACCEPT in its three cases (42_accept.md R77 to R79) -/

theorem execPush_of_room {s : State} (h : s.wcnt < s.cfg.rxCap) (b : Byte) :
    execPush b s = .next (s.appendByte b) := by
  have hroom : s.hasRoom = true := decide_eq_true h
  have htake : s.takesByte = true := by
    rw [State.takesByte]
    cases s.cfg.ovfPolicy with
    | drop => rfl
    | backpressure => exact hroom
  rw [execPush, if_pos htake, if_pos hroom]

theorem execPush_of_full_drop {s : State} (h : s.cfg.rxCap ≤ s.wcnt) (hp : s.cfg.ovfPolicy = .drop) (b : Byte) :
    execPush b s = .next s.countDropped := by
  have hroom : s.hasRoom = false := decide_eq_false (by omega)
  have htake : s.takesByte = true := by rw [State.takesByte, hp]
  rw [execPush, if_pos htake, if_neg (by simp [hroom])]

theorem execPush_of_full_backpressure {s : State} (h : s.cfg.rxCap ≤ s.wcnt)
    (hp : s.cfg.ovfPolicy = .backpressure) (b : Byte) : execPush b s = .next s := by
  have hroom : s.hasRoom = false := decide_eq_false (by omega)
  have htake : s.takesByte = false := by rw [State.takesByte, hp, hroom]
  rw [execPush, if_neg (by simp [htake])]

/-! ### The relation -/

/-- Every way an instruction can lead from one state to the next, with its guard. `Effect.exec` and
`exists_effect` tie it to `exec`. -/
inductive Effect : Instr → State → State → Prop where
  | stored {s : State} (b : Byte) (room : s.wcnt < s.cfg.rxCap) : Effect (.push b) s (s.appendByte b)
  | dropped {s : State} (b : Byte) (full : s.cfg.rxCap ≤ s.wcnt) (policy : s.cfg.ovfPolicy = .drop) :
      Effect (.push b) s s.countDropped
  | notTaken {s : State} (b : Byte) (full : s.cfg.rxCap ≤ s.wcnt) (policy : s.cfg.ovfPolicy = .backpressure) :
      Effect (.push b) s s
  | short {s : State} (x : Bool) (few : s.wcnt < 4) : Effect (.poll x) s (s.setResult .deferShort)
  | resync {s : State} (x : Bool) (enough : 4 ≤ s.wcnt) (few : s.synced.length < 4) :
      Effect (.poll x) s (s.resynced.setResult .deferResync)
  | incomplete {s : State} (x : Bool) (enough : 4 ≤ s.wcnt) (header : 4 ≤ s.synced.length)
      (few : s.synced.length < seqLength s.synced) : Effect (.poll x) s (s.resynced.setResult .deferPartial)
  | valid {s : State} (x : Bool) (enough : 4 ≤ s.wcnt) (complete : seqLength s.synced ≤ s.synced.length)
      (ok : checksumOK (s.synced.take (seqLength s.synced)) = true) :
      Effect (.poll x) s
        (s.extracted.deliver (typeByte s.synced) (payloadBytes (s.synced.take (seqLength s.synced))))
  | invalid {s : State} (x : Bool) (enough : 4 ≤ s.wcnt) (complete : seqLength s.synced ≤ s.synced.length)
      (bad : checksumOK (s.synced.take (seqLength s.synced)) = false) :
      Effect (.poll x) s (s.extracted.countInvalid.setResult .invalid)
  | clear {s : State} (x : Bool) : Effect (.clear x) s s.clearWindow
  | handler {s : State} (en : Bool) : Effect (.handler en) s (s.setHandler en)
  | reserved {s : State} (x : Bool) : Effect (.reserved x) s s
  | reset {s : State} : Effect .reset s s.applyReset
  | frame {s : State} (k : FrameKind) (p : List Byte) (fits : p.length ≤ 255) :
      Effect (.ofFrame k p) s (s.deliver k.code p)

theorem four_le_seqLength (w : List Byte) : 4 ≤ seqLength w := Nat.le_add_right _ _

/-- The relation is sound: what it allows, `exec` answers. -/
theorem Effect.exec {i : Instr} {s t : State} (h : Effect i s t) : exec i s = .next t := by
  cases h with
  | stored b room => exact execPush_of_room room b
  | dropped b full policy => exact execPush_of_full_drop full policy b
  | notTaken b full policy => exact execPush_of_full_backpressure full policy b
  | short x few => exact (execPoll_eq x s).trans (if_pos few)
  | resync x enough few =>
    refine (execPoll_eq x s).trans ?_
    rw [if_neg (by omega), if_pos few]
  | incomplete x enough header few =>
    refine (execPoll_eq x s).trans ?_
    rw [if_neg (by omega), if_neg (by omega), if_pos few]
  | valid x enough complete ok =>
    have := four_le_seqLength s.synced
    refine (execPoll_eq x s).trans ?_
    rw [if_neg (by omega), if_neg (by omega), if_neg (by omega), if_pos ok]
  | invalid x enough complete bad =>
    have := four_le_seqLength s.synced
    refine (execPoll_eq x s).trans ?_
    rw [if_neg (by omega), if_neg (by omega), if_neg (by omega), if_neg (by simp [bad])]
  | clear x => rfl
  | handler en => rfl
  | reserved x => rfl
  | reset => rfl
  | frame k p fits => rw [exec_ofFrame, runFrame_eq, receiveFrame_next fits]

theorem exists_effect_push (b : Byte) (s : State) : ∃ t, Effect (.push b) s t := by
  by_cases room : s.wcnt < s.cfg.rxCap
  · exact ⟨_, .stored b room⟩
  · cases policy : s.cfg.ovfPolicy with
    | drop => exact ⟨_, .dropped b (not_lt.1 room) policy⟩
    | backpressure => exact ⟨_, .notTaken b (not_lt.1 room) policy⟩

theorem exists_effect_poll (x : Bool) (s : State) : ∃ t, Effect (.poll x) s t := by
  by_cases few : s.wcnt < 4
  · exact ⟨_, .short x few⟩
  have enough := not_lt.1 few
  by_cases noHeader : s.synced.length < 4
  · exact ⟨_, .resync x enough noHeader⟩
  by_cases part : s.synced.length < seqLength s.synced
  · exact ⟨_, .incomplete x enough (not_lt.1 noHeader) part⟩
  cases sum : checksumOK (s.synced.take (seqLength s.synced)) with
  | true => exact ⟨_, .valid x enough (not_lt.1 part) sum⟩
  | false => exact ⟨_, .invalid x enough (not_lt.1 part) sum⟩

/-- The relation is complete: only an oversized payload has no effect. -/
theorem exists_effect {i : Instr} (h : i.PayloadFits) (s : State) : ∃ t, Effect i s t := by
  induction i using Instr.operationOrFrame with
  | push b => exact exists_effect_push b s
  | poll x => exact exists_effect_poll x s
  | clear x => exact ⟨_, .clear x⟩
  | handler en => exact ⟨_, .handler en⟩
  | reserved x => exact ⟨_, .reserved x⟩
  | reset => exact ⟨_, .reset⟩
  | frame k p => exact ⟨_, .frame k p (h k p (Instr.frame?_ofFrame k p))⟩

/-- What is left over is refused by name, whatever the state (log 17). -/
theorem exec_of_not_payloadFits {i : Instr} (h : ¬ i.PayloadFits) (s : State) :
    exec i s = .refused .oversizedPayload := by
  simp only [Instr.PayloadFits, not_forall] at h
  obtain ⟨k, p, hframe, hlong⟩ := h
  rw [Instr.eq_ofFrame hframe, exec_ofFrame, runFrame_eq, receiveFrame, if_neg (by simpa using hlong)]

/-- Inversion: a next state is one the relation allows. -/
theorem effect_of_exec {i : Instr} {s t : State} (h : exec i s = .next t) : Effect i s t := by
  by_cases hfits : i.PayloadFits
  · obtain ⟨u, hu⟩ := exists_effect hfits s
    have heq : Host.Outcome.next u = .next t := hu.exec.symm.trans h
    cases heq
    exact hu
  · rw [exec_of_not_payloadFits hfits] at h
    cases h

/-- Every operation completes, in a way the relation names (60_exceptions.md R107). -/
theorem operation_effect {i : Instr} (h : i.isOperation = true) (s : State) :
    ∃ t, exec i s = .next t ∧ Effect i s t := by
  obtain ⟨t, ht⟩ := exists_effect (Instr.payloadFits_of_isOperation h) s
  exact ⟨t, ht.exec, ht⟩

/-! ### The invariant (10_state.md R25, R30, R34) -/

theorem bump_lt (c w : Nat) : bump c w < 2 ^ w := Nat.mod_lt _ (Nat.two_pow_pos w)

theorem State.init_inv {c : Config} (h : c.ok = true) : (State.init c).Inv where
  cfgOk := h
  wcntLe := Nat.zero_le _
  winWf := rfl
  winBelow := rfl
  dspWf := rfl
  dspBelow := rfl
  framesFit := Nat.two_pow_pos _
  invalidFit := Nat.two_pow_pos _
  droppedFit := Nat.two_pow_pos _
  droppedZero := fun _ => rfl
  eventsLen := fun _ he => nomatch he

section Invariant

variable {s : State} (h : s.Inv)
include h

theorem State.Inv.withPorts (ps : List PortCycle) : State.Inv { s with ports := ps } := { h with }

theorem State.Inv.appendByte (room : s.wcnt < s.cfg.rxCap) (b : Byte) : (s.appendByte b).Inv :=
  { h with
    wcntLe := room
    winWf := Memory.write_wf h.winWf s.wcnt b
    winBelow := Memory.write_below h.winBelow room b }

theorem State.Inv.dropFront (n : Nat) : (s.dropFront n).Inv :=
  have hle : s.wcnt - n ≤ s.cfg.rxCap := (Nat.sub_le _ _).trans h.wcntLe
  { h with
    wcntLe := hle
    winWf := Memory.shiftDown_wf h.winWf n _
    winBelow := Memory.shiftDown_below h.winBelow n _ hle }

theorem State.Inv.resynced : s.resynced.Inv := h.dropFront _

theorem State.Inv.extracted : s.extracted.Inv := h.resynced.dropFront _

theorem State.Inv.clearWindow : s.clearWindow.Inv := { h with wcntLe := Nat.zero_le _ }

theorem State.Inv.setResult (r : LastResult) : (s.setResult r).Inv := { h with }

theorem State.Inv.setHandler (en : Bool) : (s.setHandler en).Inv := { h with }

theorem State.Inv.countReceived : s.countReceived.Inv := { h with framesFit := bump_lt _ _ }

theorem State.Inv.countInvalid : s.countInvalid.Inv := { h with invalidFit := bump_lt _ _ }

/-- Under BACKPRESSURE nothing is dropped, so the policy is needed (10_state.md R30). -/
theorem State.Inv.countDropped (policy : s.cfg.ovfPolicy = .drop) : s.countDropped.Inv :=
  { h with
    droppedFit := bump_lt _ _
    droppedZero := fun hb => nomatch policy.symm.trans hb }

theorem State.Inv.writeDsp (t : Byte) {p : List Byte} (fits : p.length ≤ 255) : (s.writeDsp t p).Inv :=
  { h with
    dspWf := Memory.writeBytes_wf h.dspWf 0 p
    dspBelow := Memory.writeBytes_below h.dspBelow (by omega) }

theorem State.Inv.emit (t : Byte) {p : List Byte} (fits : p.length ≤ 255) : (s.emit t p).Inv :=
  { h with
    eventsLen := by
      intro e he
      rcases List.mem_append.1 he with hold | hnew
      · exact h.eventsLen e hold
      · rw [List.mem_singleton.1 hnew]
        exact (toNat_ofNat_length fits).symm }

theorem State.Inv.deliver (t : Byte) {p : List Byte} (fits : p.length ≤ 255) : (s.deliver t p).Inv := by
  rw [State.deliver]
  split_ifs
  · exact ((h.countReceived.writeDsp t fits).emit t fits).setResult _
  · exact h.countReceived.setResult _

theorem State.Inv.applyReset : s.applyReset.Inv :=
  { h with
    wcntLe := Nat.zero_le _
    dspWf := rfl
    dspBelow := rfl
    framesFit := Nat.two_pow_pos _
    invalidFit := Nat.two_pow_pos _
    droppedFit := Nat.two_pow_pos _
    droppedZero := fun _ => rfl }

theorem Effect.keeps_inv {i : Instr} {t : State} (he : Effect i s t) : t.Inv := by
  cases he with
  | stored b room => exact h.appendByte room b
  | dropped b full policy => exact h.countDropped policy
  | notTaken b full policy => exact h
  | short x few => exact h.setResult _
  | resync x enough few => exact h.resynced.setResult _
  | incomplete x enough header few => exact h.resynced.setResult _
  | valid x enough complete ok => exact h.extracted.deliver _ (payloadBytes_length_le _)
  | invalid x enough complete bad => exact h.extracted.countInvalid.setResult _
  | clear x => exact h.clearWindow
  | handler en => exact h.setHandler en
  | reserved x => exact h
  | reset => exact h.applyReset
  | frame k p fits => exact h.deliver _ fits

end Invariant

/-- A fetch moves the schedule on and nothing else, and presents no frame form. -/
theorem fetch_cases (s : State) :
    (∃ ps, fetch s = .idle { s with ports := ps }) ∨
    (∃ i ps, fetch s = .operation i { s with ports := ps } ∧ i.isOperation = true) := by
  cases hports : s.ports with
  | nil => exact .inl ⟨s.ports, fetch_of_ports_nil hports⟩
  | cons p rest =>
    simp only [fetch, hports]
    split_ifs
    · exact .inr ⟨_, _, rfl, rfl⟩
    · exact .inr ⟨_, _, rfl, rfl⟩
    · exact .inr ⟨_, _, rfl, decodeCommand_isOperation _⟩
    · exact .inl ⟨_, rfl⟩

/-- Inversion of a step: the schedule moves on, and at most one operation is performed. -/
theorem step_cases {s t : State} (h : step s = .next t) :
    ∃ ps, t = { s with ports := ps } ∨ ∃ i, i.isOperation = true ∧ Effect i { s with ports := ps } t := by
  by_cases hok : s.cfg.ok = true
  · rw [step, if_pos hok] at h
    rcases fetch_cases s with ⟨ps, hf⟩ | ⟨i, ps, hf, hop⟩
    · rw [hf] at h
      cases h
      exact ⟨ps, .inl rfl⟩
    · rw [hf] at h
      exact ⟨ps, .inr ⟨i, hop, effect_of_exec h⟩⟩
  · rw [step_of_not_ok hok] at h
    cases h

/-! ### What cannot be observed (10_state.md R26) -/

section Visibility

variable {s t : State}

/-- A function that does not read WIN has the same value on both. -/
theorem State.SameVisible.congr {α : Type} (h : s.SameVisible t) (f : State → α)
    (blind : ∀ u : State, f { u with win := [] } = f u) : f t = f s := by
  rw [← blind s, ← blind t, h.1]

theorem State.SameVisible.wcnt_eq (h : s.SameVisible t) : t.wcnt = s.wcnt :=
  h.congr State.wcnt fun _ => rfl

theorem State.SameVisible.cfg_eq (h : s.SameVisible t) : t.cfg = s.cfg :=
  h.congr State.cfg fun _ => rfl

theorem State.SameVisible.handlerEn_eq (h : s.SameVisible t) : t.handlerEn = s.handlerEn :=
  h.congr State.handlerEn fun _ => rfl

theorem State.SameVisible.outputs_eq (h : s.SameVisible t) : t.outputs = s.outputs :=
  h.congr State.outputs fun _ => rfl

theorem State.SameVisible.synced_eq (h : s.SameVisible t) : t.synced = s.synced := by
  rw [State.synced, State.synced, h.2]

/-- An update that writes the other fields without reading WIN keeps the relation, if it leaves the two
windows' sequences equal. -/
theorem State.SameVisible.map (h : s.SameVisible t) (f : State → State)
    (blind : ∀ u : State, { f { u with win := [] } with win := [] } = { f u with win := [] })
    (bytes : (f s).bytes = (f t).bytes) : (f s).SameVisible (f t) :=
  ⟨by rw [← blind s, ← blind t, h.1], bytes⟩

theorem State.SameVisible.appendByte (h : s.SameVisible t) (b : Byte) :
    (s.appendByte b).SameVisible (t.appendByte b) :=
  h.map (·.appendByte b) (fun _ => rfl) (by rw [State.appendByte_bytes, State.appendByte_bytes, h.2])

theorem State.SameVisible.dropFront (h : s.SameVisible t) (n : Nat) :
    (s.dropFront n).SameVisible (t.dropFront n) :=
  h.map (·.dropFront n) (fun _ => rfl) (by rw [State.dropFront_bytes, State.dropFront_bytes, h.2])

theorem State.SameVisible.resynced (h : s.SameVisible t) : s.resynced.SameVisible t.resynced := by
  rw [State.resynced, State.resynced, State.resyncIndex, State.resyncIndex, h.2]
  exact h.dropFront _

theorem State.SameVisible.extracted (h : s.SameVisible t) : s.extracted.SameVisible t.extracted := by
  rw [State.extracted, State.extracted, h.synced_eq]
  exact h.resynced.dropFront _

theorem State.SameVisible.clearWindow (h : s.SameVisible t) : s.clearWindow.SameVisible t.clearWindow :=
  h.map State.clearWindow (fun _ => rfl) (by rw [State.clearWindow_bytes, State.clearWindow_bytes])

theorem State.SameVisible.applyReset (h : s.SameVisible t) : s.applyReset.SameVisible t.applyReset :=
  h.map State.applyReset (fun _ => rfl) (by rw [State.applyReset_bytes, State.applyReset_bytes])

theorem State.SameVisible.setResult (h : s.SameVisible t) (r : LastResult) :
    (s.setResult r).SameVisible (t.setResult r) :=
  h.map (·.setResult r) (fun _ => rfl) h.2

theorem State.SameVisible.setHandler (h : s.SameVisible t) (en : Bool) :
    (s.setHandler en).SameVisible (t.setHandler en) :=
  h.map (·.setHandler en) (fun _ => rfl) h.2

theorem State.SameVisible.countInvalid (h : s.SameVisible t) : s.countInvalid.SameVisible t.countInvalid :=
  h.map State.countInvalid (fun _ => rfl) h.2

theorem State.SameVisible.countDropped (h : s.SameVisible t) : s.countDropped.SameVisible t.countDropped :=
  h.map State.countDropped (fun _ => rfl) h.2

theorem State.SameVisible.countReceived (h : s.SameVisible t) : s.countReceived.SameVisible t.countReceived :=
  h.map State.countReceived (fun _ => rfl) h.2

theorem State.SameVisible.writeDsp (h : s.SameVisible t) (ty : Byte) (p : List Byte) :
    (s.writeDsp ty p).SameVisible (t.writeDsp ty p) :=
  h.map (·.writeDsp ty p) (fun _ => rfl) h.2

theorem State.SameVisible.emit (h : s.SameVisible t) (ty : Byte) (p : List Byte) :
    (s.emit ty p).SameVisible (t.emit ty p) :=
  h.map (·.emit ty p) (fun _ => rfl) h.2

theorem State.SameVisible.deliver (h : s.SameVisible t) (ty : Byte) (p : List Byte) :
    (s.deliver ty p).SameVisible (t.deliver ty p) := by
  rw [State.deliver, State.deliver, h.handlerEn_eq]
  split_ifs
  · exact ((h.countReceived.writeDsp ty p).emit ty p).setResult _
  · exact h.countReceived.setResult _

/-- The guards read nothing that the relation leaves open, so related states have related effects. -/
theorem Effect.of_sameVisible {i : Instr} {s' : State} (he : Effect i s s') (h : s.SameVisible t) :
    ∃ t', Effect i t t' ∧ s'.SameVisible t' := by
  have hw := h.wcnt_eq
  have hc := h.cfg_eq
  have hs := h.synced_eq
  cases he with
  | stored b room => exact ⟨_, .stored b (by rwa [hw, hc]), h.appendByte b⟩
  | dropped b full policy => exact ⟨_, .dropped b (by rwa [hw, hc]) (by rwa [hc]), h.countDropped⟩
  | notTaken b full policy => exact ⟨_, .notTaken b (by rwa [hw, hc]) (by rwa [hc]), h⟩
  | short x few => exact ⟨_, .short x (by rwa [hw]), h.setResult _⟩
  | resync x enough few => exact ⟨_, .resync x (by rwa [hw]) (by rwa [hs]), h.resynced.setResult _⟩
  | incomplete x enough header few =>
    exact ⟨_, .incomplete x (by rwa [hw]) (by rwa [hs]) (by rwa [hs]), h.resynced.setResult _⟩
  | valid x enough complete ok =>
    refine ⟨_, .valid x (by rwa [hw]) (by rwa [hs]) (by rwa [hs]), ?_⟩
    rw [hs]
    exact h.extracted.deliver _ _
  | invalid x enough complete bad =>
    exact ⟨_, .invalid x (by rwa [hw]) (by rwa [hs]) (by rwa [hs]), h.extracted.countInvalid.setResult _⟩
  | clear x => exact ⟨_, .clear x, h.clearWindow⟩
  | handler en => exact ⟨_, .handler en, h.setHandler en⟩
  | reserved x => exact ⟨_, .reserved x, h⟩
  | reset => exact ⟨_, .reset, h.applyReset⟩
  | frame k p fits => exact ⟨_, .frame k p fits, h.deliver _ _⟩

end Visibility

/-! ### Who writes what (10_state.md R28 to R35) -/

/-- R28 to R30, R34: which counter moves, and in which operation. RESET and the frame rows, whose count
is their POLL's, are left out. -/
theorem Effect.counter_cases {i : Instr} {s t : State} (he : Effect i s t) (hop : i.isOperation = true)
    (hreset : i ≠ .reset) :
    (t.rxFrames = s.rxFrames ∧ t.rxInvalid = s.rxInvalid ∧ t.rxDropped = s.rxDropped) ∨
    ((t.rxFrames = bump s.rxFrames s.cfg.cntW ∧ t.rxInvalid = s.rxInvalid ∧ t.rxDropped = s.rxDropped) ∧
      (∃ x, i = .poll x) ∧ (t.lastResult = .validDispatched ∨ t.lastResult = .validUnhandled)) ∨
    ((t.rxFrames = s.rxFrames ∧ t.rxInvalid = bump s.rxInvalid s.cfg.cntW ∧ t.rxDropped = s.rxDropped) ∧
      (∃ x, i = .poll x) ∧ t.lastResult = .invalid) ∨
    ((t.rxFrames = s.rxFrames ∧ t.rxInvalid = s.rxInvalid ∧ t.rxDropped = bump s.rxDropped s.cfg.cntW) ∧
      (∃ b, i = .push b) ∧ s.cfg.ovfPolicy = .drop ∧ s.cfg.rxCap ≤ s.wcnt) := by
  cases he with
  | dropped b full policy => exact .inr (.inr (.inr ⟨⟨rfl, rfl, rfl⟩, ⟨b, rfl⟩, policy, full⟩))
  | valid x => exact .inr (.inl ⟨by simp, ⟨x, rfl⟩, State.deliver_lastResult_cases _ _ _⟩)
  | invalid x => exact .inr (.inr (.inl ⟨⟨rfl, rfl, rfl⟩, ⟨x, rfl⟩, rfl⟩))
  | reset => exact absurd rfl hreset
  | frame k p => simp at hop
  | stored | notTaken | short | resync | incomplete | clear | handler | reserved => exact .inl ⟨rfl, rfl, rfl⟩

/-- R102: the DSP registers stay, but for RESET, a dispatching POLL and the frame rows it runs. -/
theorem Effect.dsp_eq {i : Instr} {s t : State} (he : Effect i s t) (hop : i.isOperation = true)
    (hreset : i ≠ .reset) (hnot : (∀ x, i ≠ .poll x) ∨ t.lastResult ≠ .validDispatched) :
    t.dspType = s.dspType ∧ t.dspLen = s.dspLen ∧ t.dspPayload = s.dspPayload := by
  cases he with
  | valid x =>
    have hres := hnot.resolve_left fun hpoll => hpoll x rfl
    simpa using State.deliver_dsp_of_not_dispatched hres
  | reset => exact absurd rfl hreset
  | frame k p => simp at hop
  | stored | dropped | notTaken | short | resync | incomplete | invalid | clear | handler | reserved =>
    exact ⟨rfl, rfl, rfl⟩

/-- R31: who writes LAST_RESULT. -/
theorem Effect.lastResult_cases {i : Instr} {s t : State} (he : Effect i s t) (hop : i.isOperation = true) :
    ((∃ x, i = .poll x) ∧ t.lastResult ≠ .none) ∨ (i = .reset ∧ t.lastResult = .none) ∨
    ((∀ x, i ≠ .poll x) ∧ i ≠ .reset ∧ t.lastResult = s.lastResult) := by
  cases he with
  | short x | resync x | incomplete x | invalid x => exact .inl ⟨⟨x, rfl⟩, nofun⟩
  | valid x =>
    refine .inl ⟨⟨x, rfl⟩, fun hnone => ?_⟩
    rcases State.deliver_lastResult_cases _ _ _ with hres | hres <;> exact nomatch hres.symm.trans hnone
  | reset => exact .inr (.inl ⟨rfl, rfl⟩)
  | stored | dropped | notTaken | clear | handler | reserved => exact .inr (.inr ⟨nofun, nofun, rfl⟩)
  | frame k p => simp at hop

/-- R31: code 7 is no value's. -/
theorem LastResult.code_ne_seven (r : LastResult) : r.code ≠ 7 := by
  cases r <;> decide

/-- R32: who writes HANDLER_EN. -/
theorem Effect.handlerEn_cases {i : Instr} {s t : State} (he : Effect i s t) :
    (i = .reset ∧ t.handlerEn = false) ∨ (i = .handler t.handlerEn) ∨
    ((∀ en, i ≠ .handler en) ∧ i ≠ .reset ∧ t.handlerEn = s.handlerEn) := by
  cases he with
  | reset => exact .inl ⟨rfl, rfl⟩
  | handler en => exact .inr (.inl rfl)
  | valid => exact .inr (.inr ⟨nofun, nofun, by simp⟩)
  | frame k p => exact .inr (.inr ⟨by cases k <;> exact nofun, by cases k <;> exact nofun, by simp⟩)
  | stored | dropped | notTaken | short | resync | incomplete | invalid | clear | reserved =>
    exact .inr (.inr ⟨nofun, nofun, rfl⟩)

/-! ### The parameters and the schedule (10_state.md R20, 92_eei_decisions.md D22) -/

theorem Effect.cfg_ports_eq {i : Instr} {s t : State} (he : Effect i s t) : t.cfg = s.cfg ∧ t.ports = s.ports := by
  cases he with
  | valid | frame => simp
  | stored | dropped | notTaken | short | resync | incomplete | invalid | clear | handler | reserved | reset =>
    exact ⟨rfl, rfl⟩

/-- The state of a machine built with another TENDON_SPOOL_ENCODING. -/
def State.withSpool (s : State) (e : TendonSpoolEncoding) : State :=
  { s with cfg := { s.cfg with tendonSpool := e } }

theorem State.withSpool_deliver (s : State) (e : TendonSpoolEncoding) (t : Byte) (p : List Byte) :
    (s.withSpool e).deliver t p = (s.deliver t p).withSpool e := by
  cases h : s.handlerEn with
  | true => rw [State.deliver_on h, State.deliver_on (s := s.withSpool e) h]; rfl
  | false => rw [State.deliver_off h, State.deliver_off (s := s.withSpool e) h]; rfl

/-- No guard and no update reads TENDON_SPOOL_ENCODING, so an effect is one whatever its value. -/
theorem Effect.withSpool {i : Instr} {s t : State} (he : Effect i s t) (e : TendonSpoolEncoding) :
    Effect i (s.withSpool e) (t.withSpool e) := by
  cases he with
  | stored b room => exact .stored b room
  | dropped b full policy => exact .dropped b full policy
  | notTaken b full policy => exact .notTaken b full policy
  | short x few => exact .short x few
  | resync x enough few => exact .resync x enough few
  | incomplete x enough header few => exact .incomplete x enough header few
  | valid x enough complete ok =>
    rw [← State.withSpool_deliver]
    exact .valid x enough complete ok
  | invalid x enough complete bad => exact .invalid x enough complete bad
  | clear x => exact .clear x
  | handler en => exact .handler en
  | reserved x => exact .reserved x
  | reset => exact .reset
  | frame k p fits =>
    rw [← State.withSpool_deliver]
    exact .frame k p fits

/-! ### The obligations -/

/-- Settles O17: the schedule is no part of the invariant, and every effect keeps it. -/
theorem everyStepKeepsInvariant : Obligations.EveryStepKeepsInvariant := by
  intro s t h hstep
  obtain ⟨ps, rfl | ⟨i, -, he⟩⟩ := step_cases hstep
  · exact h.withPorts ps
  · exact Effect.keeps_inv (h.withPorts ps) he

/-- Settles O23: an effect of the one state is matched by an effect of the other, and a refusal does not
look at the state. -/
theorem bytesPastWcntAreUnobservable : Obligations.BytesPastWcntAreUnobservable := by
  intro i s t h
  refine ⟨h.outputs_eq.symm, ?_⟩
  by_cases hfits : i.PayloadFits
  · obtain ⟨s', hs⟩ := exists_effect hfits s
    obtain ⟨t', ht, hvis⟩ := hs.of_sameVisible h
    exact .inl ⟨s', t', hs.exec, ht.exec, hvis⟩
  · exact .inr ⟨_, exec_of_not_payloadFits hfits s, exec_of_not_payloadFits hfits t⟩

/-- Settles O47, by the frame of every effect but RESET's and a dispatching POLL's. -/
theorem dspRegistersHoldTheLastFrame : Obligations.DspRegistersHoldTheLastFrame := by
  intro i s hop hreset
  obtain ⟨t, ht, he⟩ := operation_effect hop s
  exact ⟨t, ht, he.dsp_eq hop hreset⟩

/-- Settles O48, by the counters' cases. -/
theorem countersStepByOneAndAlone : Obligations.CountersStepByOneAndAlone := by
  intro i s hop hreset
  obtain ⟨t, ht, he⟩ := operation_effect hop s
  refine ⟨t, ht, ?_⟩
  rcases he.counter_cases hop hreset with hsame | ⟨hframes, -⟩ | ⟨hinvalid, -⟩ | ⟨hdropped, -⟩
  · exact .inl hsame
  · exact .inr (.inl hframes)
  · exact .inr (.inr (.inl hinvalid))
  · exact .inr (.inr (.inr hdropped))

/-- Settles O49, by the counters' cases: where a counter moves, the case says who wrote it. -/
theorem countersHaveTheirOneWriter : Obligations.CountersHaveTheirOneWriter := by
  intro i s hop hreset
  obtain ⟨t, ht, he⟩ := operation_effect hop s
  refine ⟨t, ht, ?_⟩
  rcases he.counter_cases hop hreset with
    ⟨hf, hi, hd⟩ | ⟨⟨-, hi, hd⟩, hwriter⟩ | ⟨⟨hf, -, hd⟩, hwriter⟩ | ⟨⟨hf, hi, -⟩, hwriter⟩
  · exact ⟨fun h => absurd hf h, fun h => absurd hi h, fun h => absurd hd h⟩
  · exact ⟨fun _ => hwriter, fun h => absurd hi h, fun h => absurd hd h⟩
  · exact ⟨fun h => absurd hf h, fun _ => hwriter, fun h => absurd hd h⟩
  · exact ⟨fun h => absurd hf h, fun h => absurd hi h, fun _ => hwriter⟩

/-- Settles O50, by the three cases of who writes LAST_RESULT. -/
theorem lastResultWrittenByPollAndResetOnly : Obligations.LastResultWrittenByPollAndResetOnly := by
  intro i s hop
  obtain ⟨t, ht, he⟩ := operation_effect hop s
  refine ⟨t, ht, LastResult.code_ne_seven _, ?_⟩
  rcases he.lastResult_cases hop with ⟨⟨x, rfl⟩, hres⟩ | ⟨rfl, hres⟩ | ⟨hpoll, hreset, hres⟩
  · exact ⟨fun _ => hres, nofun, fun h => absurd rfl (h x)⟩
  · exact ⟨nofun, fun _ => hres, fun _ h => absurd rfl h⟩
  · exact ⟨fun ⟨x, hx⟩ => absurd hx (hpoll x), fun h => absurd h hreset, fun _ _ => hres⟩

/-- Settles O51, by the three cases of who writes HANDLER_EN. -/
theorem handlerEnableWrittenBySetHandlerAndResetOnly :
    Obligations.HandlerEnableWrittenBySetHandlerAndResetOnly := by
  intro i s hop
  obtain ⟨t, ht, he⟩ := operation_effect hop s
  refine ⟨t, ht, ?_⟩
  rcases he.handlerEn_cases with ⟨rfl, hen⟩ | hset | ⟨hset, hreset, hen⟩
  · exact ⟨fun _ => hen, nofun, fun _ h => absurd rfl h⟩
  · refine ⟨fun h => (nomatch h.symm.trans hset), fun en h => ?_, fun h => absurd hset (h _)⟩
    exact Instr.handler.inj (hset.symm.trans h)
  · exact ⟨fun h => absurd h hreset, fun en h => absurd h (hset en), fun _ _ => hen⟩

/-- Settles O53: an effect writes neither field, and stands whatever the encoding is. -/
theorem parametersNeverChange : Obligations.ParametersNeverChange := by
  intro i s hwf
  obtain ⟨t, he⟩ := exists_effect (Instr.payloadFits_of_wellFormed hwf) s
  obtain ⟨hcfg, hports⟩ := he.cfg_ports_eq
  exact ⟨t, he.exec, hcfg, hports, fun e => (he.withSpool e).exec⟩

/-- Settles O14: the payload memory RESET leaves lists nothing. -/
theorem resetOperationLeavesResetValues : Obligations.ResetOperationLeavesResetValues :=
  fun _ => ⟨[], Effect.reset.exec, fun i _ => Memory.read_nil i⟩

/-- Settles O16; the default configuration is a legal one. -/
theorem invariantHoldsAtReset : Obligations.InvariantHoldsAtReset :=
  ⟨State.init_inv (by decide), fun _ hok => State.init_inv hok⟩

/-- Settles O40. -/
theorem clearEmptiesTheWindowOnly : Obligations.ClearEmptiesTheWindowOnly :=
  fun x _ => (Effect.clear x).exec

/-- Settles O52: all but the table of codes is read off `State.outputs`. -/
theorem outputsFollowTheTable : Obligations.OutputsFollowTheTable := by
  intro s
  refine ⟨rfl, decide_eq_true_iff, rfl, rfl, rfl, rfl, rfl, ?codes, rfl, rfl, rfl, fun _ => rfl⟩
  case codes =>
    change s.lastResult.code = _
    cases s.lastResult <;> rfl

end Sys2Proof.Machine

/-! ## Memory: the window, frames in it, and operations in one total order (20_memory.md) -/

namespace Sys2Proof

/-! ### What the decoder accepts (30_encoding.md R55 to R58) -/

/-- An operation is the instruction its encoding names. -/
theorem decode_encode_of_isOperation {i : Instr} (h : i.isOperation = true) : decode (encode i) = .ok i := by
  induction i using Instr.operationOrFrame with
  | push b => rfl
  | poll x => cases x <;> rfl
  | clear x => cases x <;> rfl
  | handler en => cases en <;> rfl
  | reserved x => cases x <;> rfl
  | reset => rfl
  | frame k p => simp at h

/-- An operation is presented in one cycle. -/
theorem exists_cycles_encode_eq_singleton {i : Instr} (h : i.isOperation = true) :
    ∃ p, (encode i).cycles = [p] := by
  induction i using Instr.operationOrFrame with
  | push b => exact ⟨_, rfl⟩
  | poll x => exact ⟨_, rfl⟩
  | clear x => exact ⟨_, rfl⟩
  | handler en => exact ⟨_, rfl⟩
  | reserved x => exact ⟨_, rfl⟩
  | reset => exact ⟨_, rfl⟩
  | frame k p => simp at h

theorem decode_wire_of_short {bs : List Byte} (h : bs.length < 4) : decode (.wire bs) = .error .tooShort := by
  simp [decode, decodeFrame, h]

end Sys2Proof

namespace Sys2Proof.Machine

/-- Inversion of the frame decoder: a complete candidate with a good checksum, and what is read off it. -/
theorem decodeFrame_eq_ok {bs rest : List Byte} {i : Instr} (h : decodeFrame bs = .ok (i, rest)) :
    seqLength bs ≤ bs.length ∧ checksumOK (bs.take (seqLength bs)) = true ∧
      i = .ofFrame (.ofCode (typeByte bs)) (payloadBytes (bs.take (seqLength bs))) ∧
      rest = bs.drop (seqLength bs) := by
  have hlen : frameLength (lengthByte bs) = seqLength bs := rfl
  have htype : typeByte (bs.take (seqLength bs)) = typeByte bs := typeByte_take (by unfold seqLength; omega)
  simp only [decodeFrame, hlen, htype] at h
  split_ifs at h with hshort hstart htrunc hsum
  simp only [Except.ok.injEq, Prod.mk.injEq] at h
  exact ⟨not_lt.1 htrunc, hsum, h.1.symm, h.2.symm⟩

/-! ### A frame behind noise (43_poll.md R83, R86) -/

/-- A built frame declares its own length, whatever stands behind it. -/
theorem seqLength_frameBytes_append (t : Byte) {p : List Byte} (h : p.length ≤ 255) (tail : List Byte) :
    seqLength (frameBytes t p ++ tail) = (frameBytes t p).length := by
  have hbyte : lengthByte (frameBytes t p ++ tail) = BitVec.ofNat 8 p.length := rfl
  rw [seqLength, hbyte, toNat_ofNat_length h, length_frameBytes, Nat.add_comm]

/-- POLL discards the noise, removes the frame and delivers it (43_poll.md R83, R86, R87). -/
theorem effect_poll_of_frame {s : State} {noise p tail : List Byte} {t : Byte} (x : Bool)
    (hnoise : START ∉ noise) (hp : p.length ≤ 255) (hbytes : s.bytes = noise ++ frameBytes t p ++ tail) :
    Effect (.poll x) s (s.extracted.deliver t p) ∧ s.extracted.bytes = tail := by
  have hsync : s.synced = frameBytes t p ++ tail := by
    rw [State.synced, hbytes, List.append_assoc]
    exact dropWhile_noise hnoise (.inr rfl)
  have hlen : seqLength s.synced = (frameBytes t p).length := by
    rw [hsync, seqLength_frameBytes_append t hp]
  have htake : s.synced.take (seqLength s.synced) = frameBytes t p := by rw [hlen, hsync, List.take_left]
  have htype : typeByte s.synced = t := by rw [hsync]; rfl
  have henough : 4 ≤ s.wcnt := by
    have hcount := congrArg List.length hbytes
    simp only [State.length_bytes, List.length_append, length_frameBytes] at hcount
    omega
  have hcomplete : seqLength s.synced ≤ s.synced.length := by rw [hlen, hsync]; simp
  constructor
  · have he := Effect.valid x henough hcomplete (htake ▸ checksumOK_frameBytes t p)
    rwa [htake, htype, payloadBytes_frameBytes t hp] at he
  · rw [State.extracted_bytes, hlen, hsync, List.drop_left]

theorem State.deliver_bytes (s : State) (t : Byte) (p : List Byte) : (s.deliver t p).bytes = s.bytes := by
  simp [State.bytes_eq]

/-- With a sink, a delivery gives one event (45_dispatch.md R100). -/
theorem State.deliver_events {s : State} (h : s.handlerEn = true) (t : Byte) (p : List Byte) :
    (s.deliver t p).events = s.events ++ [⟨t, BitVec.ofNat 8 p.length, p⟩] := by
  rw [State.deliver_on h]

/-- Removing noise and candidate writes WIN and WCNT only. -/
theorem State.extracted_eq (s : State) :
    s.extracted = { s with win := s.extracted.win, wcnt := (s.synced.drop (seqLength s.synced)).length } := by
  rw [← State.extracted_bytes, State.length_bytes]
  rfl

/-! ### The counters over a run (10_state.md R34) -/

/-- Counting `n + 1` times is counting to `n + 1` modulo the width. -/
theorem bump_iterate_succ (w n c : Nat) : (bump · w)^[n + 1] c = (c + (n + 1)) % 2 ^ w := by
  induction n with
  | zero => rfl
  | succ n ih => rw [Function.iterate_succ_apply', ih, bump, Nat.mod_add_mod, Nat.add_assoc]

/-! ### Runs (20_memory.md R48) -/

theorem Effect.runOps_cons {i : Instr} {s t : State} (h : Effect i s t) (ops : List Instr) :
    runOps (i :: ops) s = runOps ops t := by
  rw [runOps, h.exec]

theorem run_succ_of_step (M : Host.Core) {s t : M.State} (h : M.step s = .next t) (n : Nat) :
    M.run (n + 1) s = M.run n t := by
  rw [Host.Core.run, h]

theorem core_run_succ {s t : State} (h : step s = .next t) (n : Nat) : core.run (n + 1) s = core.run n t :=
  run_succ_of_step core h n

/-- The frames of R50: each with the noise in front of it, its TYPE byte and its payload. -/
abbrev NoisyFrame := List Byte × Byte × List Byte

/-- The bytes that a list of frames, each behind its noise, puts in the window. -/
def streamBytes (fs : List NoisyFrame) : List Byte := fs.flatMap fun f => f.1 ++ frameBytes f.2.1 f.2.2

/-- The events that frames give, in their order (45_dispatch.md R100). -/
def streamEvents (fs : List NoisyFrame) : List DispatchEvent :=
  fs.map fun f => ⟨f.2.1, BitVec.ofNat 8 f.2.2.length, f.2.2⟩

/-- One POLL a frame, by induction over the frames: each delivers the first and leaves the others. -/
theorem runOps_polls_of_stream (fs : List NoisyFrame) (tail : List Byte) (s : State)
    (hfs : ∀ f ∈ fs, START ∉ f.1 ∧ f.2.2.length ≤ 255) (hbytes : s.bytes = streamBytes fs ++ tail)
    (hen : s.handlerEn = true) :
    ∃ t, runOps (List.replicate fs.length (.poll false)) s = .next t ∧ t.bytes = tail ∧
      t.rxInvalid = s.rxInvalid ∧ t.events = s.events ++ streamEvents fs ∧
      t.rxFrames = (bump · s.cfg.cntW)^[fs.length] s.rxFrames := by
  induction fs generalizing s with
  | nil => exact ⟨s, rfl, hbytes, rfl, (List.append_nil _).symm, rfl⟩
  | cons f fs ih =>
    obtain ⟨noise, ty, p⟩ := f
    obtain ⟨⟨hnoise, hp⟩, hrest⟩ := List.forall_mem_cons.1 hfs
    have hfront : s.bytes = noise ++ frameBytes ty p ++ (streamBytes fs ++ tail) := by
      simp [hbytes, streamBytes]
    obtain ⟨he, hleft⟩ := effect_poll_of_frame false hnoise hp hfront
    have hen' : s.extracted.handlerEn = true := by simpa using hen
    obtain ⟨t, hrun, htail, hinvalid, hevents, hframes⟩ :=
      ih (s.extracted.deliver ty p) hrest ((State.deliver_bytes _ _ _).trans hleft) (by simpa using hen)
    refine ⟨t, (he.runOps_cons _).trans hrun, htail, ?_, ?_, ?_⟩
    · simpa using hinvalid
    · simpa [streamEvents, State.deliver_events hen'] using hevents
    · simpa using hframes

/-! ### The schedule (20_memory.md R49, 70_reset_and_hazards.md R121, log 5) -/

/-- The state with another schedule. -/
def State.withPorts (s : State) (ps : List PortCycle) : State := { s with ports := ps }

@[simp] theorem State.withPorts_withPorts (s : State) (ps qs : List PortCycle) :
    (s.withPorts ps).withPorts qs = s.withPorts qs := rfl

theorem State.withPorts_of_ports_eq {s : State} {ps : List PortCycle} (h : s.ports = ps) : s.withPorts ps = s := by
  rw [← h]; rfl

theorem State.withPorts_deliver (s : State) (ps : List PortCycle) (t : Byte) (p : List Byte) :
    (s.withPorts ps).deliver t p = (s.deliver t p).withPorts ps := by
  cases h : s.handlerEn with
  | true => rw [State.deliver_on h, State.deliver_on (s := s.withPorts ps) h]; rfl
  | false => rw [State.deliver_off h, State.deliver_off (s := s.withPorts ps) h]; rfl

/-- No guard and no update reads the schedule, so an effect is one whatever is presented next. -/
theorem Effect.withPorts {i : Instr} {s t : State} (he : Effect i s t) (ps : List PortCycle) :
    Effect i (s.withPorts ps) (t.withPorts ps) := by
  cases he with
  | stored b room => exact .stored b room
  | dropped b full policy => exact .dropped b full policy
  | notTaken b full policy => exact .notTaken b full policy
  | short x few => exact .short x few
  | resync x enough few => exact .resync x enough few
  | incomplete x enough header few => exact .incomplete x enough header few
  | valid x enough complete ok =>
    rw [← State.withPorts_deliver]
    exact .valid x enough complete ok
  | invalid x enough complete bad => exact .invalid x enough complete bad
  | clear x => exact .clear x
  | handler en => exact .handler en
  | reserved x => exact .reserved x
  | reset => exact .reset
  | frame k p fits =>
    rw [← State.withPorts_deliver]
    exact .frame k p fits

theorem fetch_of_cycle_reset {s : State} {p : PortCycle} {rest : List PortCycle} (h : s.ports = p :: rest)
    (hr : p.rst = true) : fetch s = .operation .reset (s.withPorts rest) := by
  simp [fetch, h, hr, State.withPorts]

theorem fetch_of_cycle_byte {s : State} {p : PortCycle} {rest : List PortCycle} (h : s.ports = p :: rest)
    (hr : p.rst = false) (hb : p.inValid = true) :
    fetch s = .operation (.push p.inData) (s.withPorts (PortCycle.afterByte p rest)) := by
  simp [fetch, h, hr, hb, State.withPorts]

/-- The command of a cycle stays behind its byte (20_memory.md R49). -/
theorem fetch_of_cycle_byte_command {s : State} {p : PortCycle} {rest : List PortCycle} (h : s.ports = p :: rest)
    (hr : p.rst = false) (hb : p.inValid = true) (hc : p.cmdValid = true) :
    fetch s = .operation (.push p.inData) (s.withPorts ({ p with inValid := false } :: rest)) := by
  rw [fetch_of_cycle_byte h hr hb, PortCycle.afterByte, if_pos hc]

theorem fetch_of_cycle_command {s : State} {p : PortCycle} {rest : List PortCycle} (h : s.ports = p :: rest)
    (hr : p.rst = false) (hb : p.inValid = false) (hc : p.cmdValid = true) :
    fetch s = .operation (decodeCommand p.cmd) (s.withPorts rest) := by
  simp [fetch, h, hr, hb, hc, State.withPorts]

theorem step_of_fetch_operation {s s' : State} {i : Instr} (hok : s.cfg.ok = true)
    (h : fetch s = .operation i s') : step s = exec i s' := by
  rw [step, if_pos hok, h]

theorem State.inReady_of_reset {s : State} {p : PortCycle} {rest : List PortCycle} (h : s.ports = p :: rest)
    (hr : p.rst = true) : s.inReady = false := by
  simp [State.inReady, State.rstAsserted, h, hr]

/-- A cycle that presents an encoded input, and nothing else, fetches the decoded instruction. -/
theorem fetch_of_decode {s : State} {w : PortWord} {i : Instr} {p : PortCycle} {rest : List PortCycle}
    (hdec : decode w = .ok i) (hcyc : w.cycles = [p]) (h : s.ports = p :: rest) :
    fetch s = .operation i (s.withPorts rest) := by
  cases w with
  | inPort v b =>
    obtain rfl := List.singleton_inj.1 hcyc
    cases v with
    | true => cases hdec; exact fetch_of_cycle_byte h rfl rfl
    | false => cases hdec
  | command c =>
    obtain rfl := List.singleton_inj.1 hcyc
    cases hdec
    exact fetch_of_cycle_command h rfl rfl rfl
  | rstPin a =>
    obtain rfl := List.singleton_inj.1 hcyc
    cases a with
    | true => cases hdec; exact fetch_of_cycle_reset h rfl
    | false => cases hdec
  | wire bs =>
    have hone : bs.length = 1 := by simpa [PortWord.cycles] using congrArg List.length hcyc
    rw [decode_wire_of_short (by omega)] at hdec
    cases hdec

/-- Presented in the oldest cycle, an operation is performed by one step, and the later cycles stay. -/
theorem Effect.step_of_presented {i : Instr} {s t : State} (he : Effect i s t) (hop : i.isOperation = true)
    (hok : s.cfg.ok = true) (rest : List PortCycle) :
    step (s.withPorts ((encode i).cycles ++ rest)) = .next (t.withPorts rest) := by
  obtain ⟨p, hp⟩ := exists_cycles_encode_eq_singleton hop
  have hok' : (s.withPorts ([p] ++ rest)).cfg.ok = true := hok
  have hports : (s.withPorts ([p] ++ rest)).ports = p :: rest := rfl
  have hfetch := fetch_of_decode (decode_encode_of_isOperation hop) hp hports
  rw [hp]
  exact (step_of_fetch_operation hok' hfetch).trans (he.withPorts rest).exec

/-! ### The ring (20_memory.md R46) -/

@[simp] theorem RingWindow.length_bytes (cap : Nat) (r : RingWindow) : (r.bytes cap).length = r.count := by
  simp [RingWindow.bytes]

@[simp] theorem RingWindow.getElem_bytes (cap : Nat) (r : RingWindow) (i : Nat) (h : i < (r.bytes cap).length) :
    (r.bytes cap)[i] = r.cells.read ((r.head + i) % cap) := by
  simp [RingWindow.bytes]

/-- Two offsets below the capacity are two cells of the ring. -/
theorem ring_index_ne {cap h i j : Nat} (hij : i < j) (hj : j < cap) : (h + i) % cap ≠ (h + j) % cap := by
  intro heq
  have hmod : i ≡ j [MOD cap] := Nat.ModEq.add_left_cancel' h heq
  exact absurd (hmod.eq_of_lt_of_lt (hij.trans hj) hj) hij.ne

/-- With room, the appended byte goes to a cell that holds no byte of the sequence. -/
theorem RingWindow.push_bytes {cap : Nat} {r : RingWindow} (h : r.count < cap) (b : Byte) :
    (r.push cap b).bytes cap = r.bytes cap ++ [b] := by
  apply List.ext_getElem
  · simp [RingWindow.push]
  · intro i h1 h2
    rcases Nat.lt_or_eq_of_le (Nat.le_of_lt_succ (by simpa [RingWindow.push] using h1)) with hi | rfl
    · rw [List.getElem_append_left (by simpa using hi)]
      simp [RingWindow.push, Memory.read_write_other (ring_index_ne hi h)]
    · rw [List.getElem_append_right (by simp)]
      simp [RingWindow.push]

/-- Moving the head by n drops n bytes of the sequence. -/
theorem RingWindow.drop_bytes (cap : Nat) (r : RingWindow) (n : Nat) :
    (r.drop cap n).bytes cap = (r.bytes cap).drop n := by
  apply List.ext_getElem
  · simp [RingWindow.drop]
  · intro i h1 h2
    simp [RingWindow.drop, Nat.add_assoc]

/-! ### The obligations -/

/-- Settles O22: both representations append the byte to, or drop the bytes from, one sequence. -/
theorem ringBufferPresentsTheSameSequence : Obligations.RingBufferPresentsTheSameSequence := by
  rintro r s ⟨hcount, hcap, hbytes⟩
  constructor
  · intro b hroom
    have hroom' : r.count < s.cfg.rxCap := hcount ▸ hroom
    refine ⟨congrArg (· + 1) hcount, hroom', ?_⟩
    rw [State.appendByte_cfg, RingWindow.push_bytes hroom', State.appendByte_bytes, hbytes]
  · intro n _
    refine ⟨congrArg (· - n) hcount, (Nat.sub_le _ _).trans hcap, ?_⟩
    rw [State.dropFront_cfg, RingWindow.drop_bytes, State.dropFront_bytes, hbytes]

/-- Settles O39, by the induction over the frames. -/
theorem framesAreDispatchedInArrivalOrder : Obligations.FramesAreDispatchedInArrivalOrder := by
  intro fs tail s hfs hbytes hen
  obtain ⟨t, hrun, htail, hinvalid, hevents, hframes⟩ := runOps_polls_of_stream fs tail s hfs hbytes hen
  refine ⟨t, hrun, htail, hinvalid, hevents, fun hne => ?_⟩
  obtain ⟨f, fs, rfl⟩ := List.exists_cons_of_ne_nil hne
  exact hframes.trans (bump_iterate_succ _ _ _)

/-- Settles O58, by induction over the operations: a step performs the first and leaves the cycles of the
others, which start from the state the first one leaves. -/
theorem stepsFollowTheTotalOrder : Obligations.StepsFollowTheTotalOrder := by
  intro ops s rest hok hops
  induction ops generalizing s with
  | nil => exact ⟨_, rfl, rfl⟩
  | cons i ops ih =>
    obtain ⟨hop, hrest⟩ := List.forall_mem_cons.1 hops
    obtain ⟨t, -, he⟩ := operation_effect hop s
    have hok' : t.cfg.ok = true := by rw [he.cfg_ports_eq.1]; exact hok
    obtain ⟨u, hrun, hsteps⟩ := ih t hok' hrest
    refine ⟨u, ((he.withPorts rest).runOps_cons ops).trans hrun, ?_⟩
    have hstep := he.step_of_presented hop hok (ops.flatMap (fun i => (encode i).cycles) ++ rest)
    rw [List.flatMap_cons, List.append_assoc]
    exact (core_run_succ hstep ops.length).trans hsteps

/-- Settles O31: what the decoder accepts is what POLL extracts, and the frame row delivers it. -/
theorem pollRunsTheDecodedFrame : Obligations.PollRunsTheDecodedFrame := by
  intro x s i rest henough hdec
  obtain ⟨hcomplete, hsum, hi, hrest⟩ := decodeFrame_eq_ok (bs := s.synced) hdec
  subst hi hrest
  have hfits := payloadBytes_length_le (s.synced.take (seqLength s.synced))
  refine ⟨?wf, s.extracted.win, ?bytes, ?run⟩
  case wf =>
    rw [Instr.wellFormed, Instr.frame?_ofFrame]
    exact Bool.and_eq_true_iff.2 ⟨FrameKind.ofCode_wellFormed _, decide_eq_true hfits⟩
  case bytes =>
    rw [← State.extracted_bytes, State.length_bytes]
    rfl
  case run =>
    have hpoll := (Effect.valid x henough hcomplete hsum).exec
    have hframe := (Effect.frame (s := s.extracted) (.ofCode (typeByte s.synced)) _ hfits).exec
    rw [FrameKind.code_ofCode] at hframe
    rw [s.extracted_eq] at hpoll hframe
    exact hpoll.trans hframe.symm

/-- Settles O55: the first step leaves the command in the oldest cycle, and the second performs it. -/
theorem byteIsPerformedBeforeCommand : Obligations.ByteIsPerformedBeforeCommand := by
  intro s p rest hok hports hrst hbyte hcmd
  obtain ⟨t, ht, hpush⟩ := operation_effect (i := .push p.inData) rfl (s.withPorts rest)
  obtain ⟨u, hu, -⟩ := operation_effect (decodeCommand_isOperation p.cmd) t
  refine ⟨t, u, ht, hu, ?_⟩
  obtain ⟨hcfg, hleft⟩ := hpush.cfg_ports_eq
  have hok' : (t.withPorts ({ p with inValid := false } :: rest)).cfg.ok = true := (congrArg Config.ok hcfg).trans hok
  have hfirst := step_of_fetch_operation hok (fetch_of_cycle_byte_command hports hrst hbyte hcmd)
  have hnext := (hpush.withPorts ({ p with inValid := false } :: rest)).exec
  have hsecond := step_of_fetch_operation hok' (fetch_of_cycle_command rfl hrst rfl hcmd)
  rw [State.withPorts_withPorts, State.withPorts_of_ports_eq (ps := rest) hleft] at hsecond
  exact (core_run_succ (hfirst.trans hnext) 1).trans (core_run_succ (hsecond.trans hu) 0)

/-- Settles O21, by what compaction does to a read and to the sequence. -/
theorem dropFrontCompactsTheWindow : Obligations.DropFrontCompactsTheWindow := by
  intro s n _
  refine ⟨rfl, fun i hi => ?_, State.dropFront_bytes s n⟩
  rw [State.dropFront_win, Memory.read_shiftDown, if_pos hi]

/-- Settles O54: the cycle of an encoded input fetches the decoded instruction. -/
theorem stepRunsTheDecodedInput : Obligations.StepRunsTheDecodedInput := by
  intro s w i p rest hok hdec hcyc _ hports
  exact step_of_fetch_operation hok (fetch_of_decode hdec hcyc hports)

/-- Settles O56: reset is looked at before the cycle's byte and command. -/
theorem resetOverridesByteAndCommand : Obligations.ResetOverridesByteAndCommand := by
  intro s p rest hok hports hrst
  refine ⟨State.inReady_of_reset hports hrst, [], ?_, fun i _ => Memory.read_nil i⟩
  exact (step_of_fetch_operation hok (fetch_of_cycle_reset hports hrst)).trans Effect.reset.exec

end Sys2Proof.Machine

/-! ## Encoding: what the decoder reads, and what it reads it from (30_encoding.md) -/

namespace Sys2Proof

/-! ### The checksum test on bytes laid out as a frame (41_checksum.md R73) -/

/-- Everything but START, folded. -/
theorem checksum_drop_one_layout (t l ck : Byte) (p : List Byte) :
    checksum (([START, t, l] ++ p ++ [ck]).drop 1) = t ^^^ l ^^^ checksum p ^^^ ck := by
  calc checksum (([START, t, l] ++ p ++ [ck]).drop 1)
      = checksum (t :: l :: p ++ [ck]) := rfl
    _ = t ^^^ l ^^^ checksum p ^^^ ck := by
      rw [checksum_snoc, checksum_cons, checksum_cons, BitVec.xor_assoc t l]

/-- The test reads TYPE, LENGTH and PAYLOAD on the one side and CHECKSUM on the other. -/
theorem checksumOK_layout (t l ck : Byte) (p : List Byte) :
    checksumOK ([START, t, l] ++ p ++ [ck]) = true ↔ t ^^^ l ^^^ checksum p = ck := by
  have hfolded : (([START, t, l] ++ p ++ [ck]).drop 1).take (([START, t, l] ++ p ++ [ck]).length - 2) =
      t :: l :: p := by simp
  have hlast : byteAt ([START, t, l] ++ p ++ [ck]) (([START, t, l] ++ p ++ [ck]).length - 1) = ck := by
    simp [byteAt]
  rw [checksumOK, hfolded, hlast, checksum_cons, checksum_cons, beq_iff_eq, BitVec.xor_assoc]

/-! ### Operations and frames as words -/

/-- A command word is the one encoding of the operation it selects (30_encoding.md R63). -/
theorem encode_decodeCommand (w : BitVec 3) : encode (decodeCommand w) = .command w := by
  revert w; decide

theorem Instr.wellFormed_of_isOperation {i : Instr} (h : i.isOperation = true) : i.wellFormed = true := by
  rw [Instr.wellFormed, Option.isNone_iff_eq_none.1 h]

theorem Instr.wellFormed_ofFrame (k : FrameKind) (p : List Byte) :
    (Instr.ofFrame k p).wellFormed = true ↔ k.wellFormed = true ∧ p.length ≤ 255 := by
  rw [Instr.wellFormed, Instr.frame?_ofFrame]
  exact Bool.and_eq_true_iff.trans (and_congr_right' decide_eq_true_iff)

end Sys2Proof

namespace Sys2Proof.Machine

/-! ### The bytes of a candidate (30_encoding.md R55, R58) -/

theorem payloadBytes_length {c : List Byte} (h : IsCandidate c) :
    (payloadBytes c).length = (lengthByte c).toNat := by
  obtain ⟨-, -, hlen⟩ := h
  simp only [frameLength, MIN_FRAME_eq] at hlen
  rw [payloadBytes, List.length_take, List.length_drop]
  omega

/-- A candidate is START, TYPE, LENGTH, PAYLOAD and one more byte. -/
theorem exists_layout_of_isCandidate {c : List Byte} (h : IsCandidate c) :
    ∃ ck, c = [START, typeByte c, lengthByte c] ++ payloadBytes c ++ [ck] := by
  obtain ⟨hmin, hstart, hlen⟩ := h
  match c with
  | [] | [_] | [_, _] => simp at hmin
  | a :: t :: l :: rest =>
    have ha : a = START := hstart
    have hrest : rest.length = l.toNat + 1 := by
      have hdeclared : frameLength (lengthByte (a :: t :: l :: rest)) = 4 + l.toNat := rfl
      simp only [hdeclared, List.length_cons] at hlen
      omega
    obtain ⟨ck, hck⟩ := List.length_eq_one_iff.1 (show (rest.drop l.toNat).length = 1 by simp [hrest])
    refine ⟨ck, ?_⟩
    calc a :: t :: l :: rest
        = START :: t :: l :: (rest.take l.toNat ++ rest.drop l.toNat) := by rw [ha, List.take_append_drop]
      _ = START :: t :: l :: (rest.take l.toNat ++ [ck]) := by rw [hck]

/-- A candidate that passes the test is the frame built from its TYPE byte and payload. -/
theorem eq_frameBytes_of_checksumOK {c : List Byte} (h : IsCandidate c) (hsum : checksumOK c = true) :
    c = frameBytes (typeByte c) (payloadBytes c) := by
  obtain ⟨ck, hc⟩ := exists_layout_of_isCandidate h
  have hck := (checksumOK_layout _ _ _ _).1 (hc ▸ hsum)
  have hl : BitVec.ofNat 8 (payloadBytes c).length = lengthByte c := by
    rw [payloadBytes_length h, BitVec.ofNat_toNat, BitVec.setWidth_eq]
  rw [frameBytes, hl, hck]
  exact hc

/-- A built frame is as long as its LENGTH says (41_checksum.md R76). -/
theorem isCandidate_frameBytes (t : Byte) {p : List Byte} (h : p.length ≤ 255) : IsCandidate (frameBytes t p) :=
  ⟨by simp, byteAt_frameBytes_zero t p, (frameLength_frameBytes t h).symm⟩

/-! ### The decoder on a candidate (30_encoding.md R70) -/

/-- On a complete candidate only the checksum test is left. -/
theorem decodeFrame_of_isCandidate {c : List Byte} (h : IsCandidate c) :
    decodeFrame c =
      if checksumOK c then .ok (.ofFrame (.ofCode (typeByte c)) (payloadBytes c), [])
      else .error .checksumMismatch := by
  obtain ⟨hmin, hstart, hlen⟩ := h
  rw [decodeFrame, if_neg (by omega), if_neg (not_not.2 hstart), if_neg (by omega), ← hlen, List.take_length,
    List.drop_length]

theorem decode_wire_of_checksumOK {c : List Byte} (h : IsCandidate c) (hsum : checksumOK c = true) :
    decode (.wire c) = .ok (.ofFrame (.ofCode (typeByte c)) (payloadBytes c)) := by
  rw [decode, decodeFrame_of_isCandidate h, if_pos hsum]

theorem decode_wire_of_checksum_bad {c : List Byte} (h : IsCandidate c) (hsum : checksumOK c = false) :
    decode (.wire c) = .error .checksumMismatch := by
  rw [decode, decodeFrame_of_isCandidate h, if_neg (by simp [hsum])]

/-- What is decoded begins with START (30_encoding.md R55). -/
theorem start_of_decodeFrame {bs rest : List Byte} {i : Instr} (h : decodeFrame bs = .ok (i, rest)) :
    byteAt bs 0 = START := by
  by_contra hstart
  rw [decodeFrame, if_pos hstart] at h
  split_ifs at h

/-- Inversion of the decoder on a wire: all of the bytes are one candidate, and it passes the test. -/
theorem decode_wire_eq_ok {bs : List Byte} {i : Instr} (h : decode (.wire bs) = .ok i) :
    IsCandidate bs ∧ checksumOK bs = true ∧ i = .ofFrame (.ofCode (typeByte bs)) (payloadBytes bs) := by
  have hframe : decodeFrame bs = .ok (i, []) := by
    rw [decode] at h
    split at h
    · next heq => cases h; exact heq
    · cases h
    · cases h
  obtain ⟨hcomplete, hsum, hi, hrest⟩ := decodeFrame_eq_ok hframe
  have hlen : bs.length = seqLength bs := le_antisymm (List.drop_eq_nil_iff.1 hrest.symm) hcomplete
  rw [← hlen, List.take_length] at hsum hi
  exact ⟨⟨hlen ▸ four_le_seqLength bs, start_of_decodeFrame hframe, hlen⟩, hsum, hi⟩

/-! ### The two round trips -/

/-- A frame instruction's encoding decodes to it, when LENGTH can hold the payload's length. -/
theorem decode_encode_ofFrame {k : FrameKind} {p : List Byte} (hk : k.wellFormed = true) (hp : p.length ≤ 255) :
    decode (encode (.ofFrame k p)) = .ok (.ofFrame k p) := by
  rw [encode_ofFrame, decode_wire_of_checksumOK (isCandidate_frameBytes _ hp) (checksumOK_frameBytes _ _),
    typeByte_frameBytes, payloadBytes_frameBytes _ hp, FrameKind.ofCode_code hk]

/-- The frame read from a candidate that passes the test is encoded as that candidate. -/
theorem encode_ofFrame_ofCode {c : List Byte} (h : IsCandidate c) (hsum : checksumOK c = true) :
    encode (.ofFrame (.ofCode (typeByte c)) (payloadBytes c)) = .wire c := by
  rw [encode_ofFrame, FrameKind.code_ofCode, ← eq_frameBytes_of_checksumOK h hsum]

/-! ### The event of a delivery (45_dispatch.md R100) -/

/-- With a sink, the frame output registers hold the payload delivered. -/
theorem State.deliver_dspFrame {s : State} (h : s.handlerEn = true) (t : Byte) {p : List Byte}
    (fits : p.length ≤ 255) : (s.deliver t p).dspFrame = p := by
  rw [State.dspFrame, State.deliver_on h, toNat_ofNat_length fits]
  exact Memory.prefixBytes_writeBytes _ p

theorem dspValid_of_events_append {s t : State} {e : DispatchEvent} (h : t.events = s.events ++ [e]) :
    dspValid s t = true := by
  simp [dspValid, h]

theorem dspValid_of_events_eq {s t : State} (h : t.events = s.events) : dspValid s t = false := by
  simp [dspValid, h]

/-- R100: which operation gives an event. The frame rows, whose event is their POLL's, are left out. -/
theorem Effect.events_cases {i : Instr} {s t : State} (he : Effect i s t) (hop : i.isOperation = true) :
    ((∃ x, i = .poll x) ∧ t.lastResult = .validDispatched ∧
      t.events = s.events ++ [⟨t.dspType, t.dspLen, t.dspFrame⟩]) ∨
    (((∀ x, i ≠ .poll x) ∨ t.lastResult ≠ .validDispatched) ∧ t.events = s.events) := by
  cases he with
  | valid x =>
    cases hsink : s.extracted.handlerEn with
    | true =>
      refine .inl ⟨⟨x, rfl⟩, ?_⟩
      rw [State.deliver_dspFrame hsink _ (payloadBytes_length_le _), State.deliver_on hsink]
      exact ⟨rfl, rfl⟩
    | false =>
      rw [State.deliver_off hsink]
      exact .inr ⟨.inr nofun, rfl⟩
  | short | resync | incomplete | invalid => exact .inr ⟨.inr nofun, rfl⟩
  | stored | dropped | notTaken | clear | handler | reserved | reset => exact .inr ⟨.inl nofun, rfl⟩
  | frame k p => simp at hop

/-- A frame row delivers its TYPE byte and payload, whichever row it is (45_dispatch.md R103). -/
theorem exec_of_frame? {i : Instr} {k : FrameKind} {p : List Byte} (h : i.frame? = some (k, p))
    (fits : p.length ≤ 255) (s : State) : exec i s = .next (s.deliver k.code p) := by
  rw [Instr.eq_ofFrame h]
  exact (Effect.frame k p fits).exec

/-! ### The obligations -/

/-- Settles O7: an operation's word selects it, and a built frame is a candidate that passes the test. -/
theorem decodeOfEncodeIsIdentity : Obligations.DecodeOfEncodeIsIdentity := by
  intro i hwf
  cases hframe : i.frame? with
  | none => exact decode_encode_of_isOperation (Option.isNone_iff_eq_none.2 hframe)
  | some kp =>
    obtain rfl := Instr.eq_ofFrame hframe
    obtain ⟨hk, hp⟩ := (Instr.wellFormed_ofFrame _ _).1 hwf
    exact decode_encode_ofFrame hk hp

/-- Settles O8: each port carries the encoding of what is read from it; on a wire that is the frame built
from the candidate's TYPE byte and payload. -/
theorem encodeOfDecodeIsIdentity : Obligations.EncodeOfDecodeIsIdentity := by
  intro w i hdec
  cases w with
  | inPort valid b =>
    cases valid with
    | true => cases hdec; exact ⟨rfl, rfl⟩
    | false => cases hdec
  | command w =>
    cases hdec
    exact ⟨Instr.wellFormed_of_isOperation (decodeCommand_isOperation w), encode_decodeCommand w⟩
  | rstPin asserted =>
    cases asserted with
    | true => cases hdec; exact ⟨rfl, rfl⟩
    | false => cases hdec
  | wire bs =>
    obtain ⟨hcand, hsum, rfl⟩ := decode_wire_eq_ok hdec
    exact ⟨(Instr.wellFormed_ofFrame _ _).2 ⟨FrameKind.ofCode_wellFormed _, payloadBytes_length_le bs⟩,
      encode_ofFrame_ofCode hcand hsum⟩

/-- Settles O3: the two tests differ by one XOR with CHECKSUM. -/
theorem validityTestComparesChecksumByte : Obligations.ValidityTestComparesChecksumByte := by
  intro t l ck p _
  refine ⟨checksumOK_layout t l ck p, ?_⟩
  rw [checksum_drop_one_layout, BitVec.xor_eq_zero_iff]
  exact checksumOK_layout t l ck p

/-- Settles O9: a byte and a command word always decode, and on a complete candidate only the test is left. -/
theorem decoderRejectsOnlyBadChecksums : Obligations.DecoderRejectsOnlyBadChecksums :=
  ⟨fun _ => rfl, fun w => ⟨decodeCommand w, rfl⟩,
    fun _ hcand hsum => ⟨_, decode_wire_of_checksumOK hcand hsum, rfl⟩,
    fun _ hcand hsum => decode_wire_of_checksum_bad hcand hsum⟩

/-- Settles O13: `frame` is what the builder makes of it, or is refused with it. -/
theorem pseudoOperationsExpand : Obligations.PseudoOperationsExpand := by
  refine ⟨fun _ => rfl, fun t p hp => ?fits, fun t p hp => ?oversized, fun _ => rfl⟩
  case fits => rw [Line.expand, buildFrame, MAX_LEN_eq, if_pos hp, Option.map_some]
  case oversized => rw [Line.expand, buildFrame, MAX_LEN_eq, if_neg (not_le.2 hp), Option.map_none]

/-- Settles O43: the payload's bytes are written in front, and those past them stay. -/
theorem validatedFrameIsDispatchedUnmodified : Obligations.ValidatedFrameIsDispatchedUnmodified := by
  intro i k p s hframe hp hsink
  refine ⟨s.dspPayload.writeBytes 0 p, ?run, Memory.prefixBytes_writeBytes _ p, fun j hj => ?past⟩
  case run =>
    rw [exec_of_frame? hframe hp, State.deliver_on hsink]
    rfl
  case past => exact Memory.read_writeBytes_other (.inr (by omega))

/-- Settles O46: an event makes the list longer, so dsp_valid tells the two cases apart. -/
theorem onlyDispatchingPollGivesAnEvent : Obligations.OnlyDispatchingPollGivesAnEvent := by
  intro i s hop
  obtain ⟨t, ht, he⟩ := operation_effect hop s
  refine ⟨t, ht, ?_⟩
  rcases he.events_cases hop with ⟨hpoll, hres, hev⟩ | ⟨hnot, hev⟩
  · exact .inl ⟨hpoll, hres, hev, dspValid_of_events_append hev⟩
  · exact .inr ⟨hnot, hev, dspValid_of_events_eq hev⟩

/-- Settles O10: each word is the encoding of the operation it selects. -/
theorem commandWordsSelectOperations : Obligations.CommandWordsSelectOperations := fun a =>
  ⟨decode_encode_of_isOperation (i := .poll a) rfl, decode_encode_of_isOperation (i := .clear a) rfl,
    decode_encode_of_isOperation (i := .handler a) rfl, decode_encode_of_isOperation (i := .reserved a) rfl⟩

/-- Settles O11: each word is the encoding, by the model's own encoder, of a well-formed instruction. -/
theorem specWordsDecode : Obligations.SpecWordsDecode :=
  ⟨rfl, rfl, rfl, rfl, rfl, rfl, rfl,
    decodeOfEncodeIsIdentity (.ping []) rfl,
    decodeOfEncodeIsIdentity (.ack [0x05#8]) rfl,
    decodeOfEncodeIsIdentity (.unknown 0x7F#8 [0x01#8, 0x02#8]) rfl⟩

/-- Settles O12: the ranges are those of `classOf`; that they follow the direction column is read off the
table, code by code. -/
theorem typeClassByRangeAndDirection : Obligations.TypeClassByRangeAndDirection := by
  refine ⟨fun t => ?ranges, ?direction⟩
  case ranges =>
    simp only [classOf, BitVec.le_def, apply_ite TypeClass.code]
    rfl
  case direction => decide

/-- Settles O44: without a sink a delivery only counts. -/
theorem validatedFrameWithoutSinkIsCountedOnly : Obligations.ValidatedFrameWithoutSinkIsCountedOnly := by
  intro i k p s hframe hp hsink
  rw [exec_of_frame? hframe hp, State.deliver_off hsink]
  rfl

end Sys2Proof.Machine

/-! ## The checksum and the valid frame (41_checksum.md) -/

namespace Sys2Proof

/-! ### The algebra of the fold (R71, R72) -/

theorem checksum_append (s t : List Byte) : checksum (s ++ t) = checksum s ^^^ checksum t := by
  rw [checksum, List.foldl_append, checksum_foldl]
  rfl

/-- XOR is commutative and associative, so the order of the bytes does not matter. -/
theorem checksum_perm {s t : List Byte} (h : s.Perm t) : checksum s = checksum t :=
  h.foldl_eq 0x00#8

theorem checksum_append_checksum (s : List Byte) : checksum (s ++ [checksum s]) = 0x00#8 := by
  rw [checksum_snoc, BitVec.xor_self]

theorem checksum_replicate_double (k : Nat) (b : Byte) : checksum (List.replicate (k + k) b) = 0x00#8 := by
  rw [List.replicate_add, checksum_append, BitVec.xor_self]

theorem checksum_append_pair (s : List Byte) (b : Byte) : checksum (s ++ [b, b]) = checksum s := by
  rw [checksum_append, show checksum [b, b] = 0x00#8 from checksum_replicate_double 1 b, BitVec.xor_zero]

/-- The bytes split into those equal to `b`, an even number that cancels, and the others. -/
theorem checksum_filter_ne_of_even_count {s : List Byte} {b : Byte} (h : Even (s.count b)) :
    checksum s = checksum (s.filter (· != b)) := by
  obtain ⟨k, hk⟩ := h
  calc checksum s
      = checksum (s.filter (· == b) ++ s.filter (· != b)) := (checksum_perm (List.filter_append_perm _ s)).symm
    _ = checksum (List.replicate (k + k) b) ^^^ checksum (s.filter (· != b)) := by
      rw [checksum_append, List.filter_beq, hk]
    _ = checksum (s.filter (· != b)) := by rw [checksum_replicate_double, BitVec.zero_xor]

/-- XOR-ing deltas in changes the checksum by the checksum of the deltas. -/
theorem checksum_zipWith_xor {c d : List Byte} (h : d.length = c.length) :
    checksum (List.zipWith (· ^^^ ·) c d) = checksum c ^^^ checksum d := by
  induction c generalizing d with
  | nil => rw [List.length_eq_zero_iff.1 h]; rfl
  | cons a c ih =>
    obtain ⟨b, d, rfl⟩ := List.exists_cons_of_length_eq_add_one h
    rw [List.zipWith_cons_cons, checksum_cons, checksum_cons, checksum_cons, ih (Nat.succ.inj h)]
    ac_rfl

/-- Writing a byte swaps it with the one that was there. -/
theorem checksum_set {s : List Byte} {i : Nat} (hi : i < s.length) (b : Byte) :
    byteAt s i ^^^ checksum (s.set i b) = b ^^^ checksum s := by
  have hold : byteAt s i = s[i]?.getD b := by simp [byteAt, hi]
  rw [hold, ← checksum_cons, ← checksum_cons]
  exact checksum_perm (List.getD_set_perm_cons s i b)

theorem checksum_swap {c : List Byte} {i j : Nat} (hi : i < c.length) (hj : j < c.length) :
    checksum ((c.set i (byteAt c j)).set j (byteAt c i)) = checksum c := by
  rw [byteAt, byteAt, List.getD_eq_getElem _ _ hi, List.getD_eq_getElem _ _ hj]
  exact checksum_perm (List.set_set_perm hi hj)

/-! ### The bytes a corruption leaves alone (R75) -/

theorem byteAt_set_ne {i k : Nat} (h : i ≠ k) (c : List Byte) (b : Byte) : byteAt (c.set i b) k = byteAt c k := by
  rw [byteAt, byteAt, List.getD_eq_getElem?_getD, List.getElem?_set_ne h, List.getD_eq_getElem?_getD]

theorem byteAt_zipWith_xor {c d : List Byte} (h : d.length = c.length) (k : Nat) :
    byteAt (List.zipWith (· ^^^ ·) c d) k = byteAt c k ^^^ byteAt d k := by
  rcases Nat.lt_or_ge k c.length with hk | hk <;> simp [byteAt, h, hk]

/-- A byte at which the deltas are 0x00 stays. -/
theorem byteAt_zipWith_xor_of_zero {c d : List Byte} (h : d.length = c.length) {k : Nat}
    (hk : byteAt d k = 0x00#8) : byteAt (List.zipWith (· ^^^ ·) c d) k = byteAt c k := by
  rw [byteAt_zipWith_xor h, hk, BitVec.xor_zero]

/-! ### The builder (R76) -/

theorem buildFrame_of_fits (t : Byte) {p : List Byte} (h : p.length ≤ 255) :
    buildFrame t p = some (frameBytes t p) := by
  rw [buildFrame, MAX_LEN_eq, if_pos h]

theorem buildFrame_of_oversized (t : Byte) {p : List Byte} (h : 255 < p.length) : buildFrame t p = none := by
  rw [buildFrame, MAX_LEN_eq, if_neg (not_le.2 h)]

theorem eq_frameBytes_of_buildFrame {t : Byte} {p s : List Byte} (h : buildFrame t p = some s) :
    p.length ≤ 255 ∧ s = frameBytes t p := by
  rcases Nat.lt_or_ge 255 p.length with hp | hp
  · rw [buildFrame_of_oversized t hp] at h
    cases h
  · rw [buildFrame_of_fits t hp] at h
    exact ⟨hp, (Option.some.inj h).symm⟩

end Sys2Proof

namespace Sys2Proof.Machine

/-! ### Candidates and the test (R73, R74) -/

/-- A well-formed sequence is a candidate that passes the test. -/
theorem wireWellFormed_iff (s : List Byte) : wireWellFormed s = true ↔ IsCandidate s ∧ checksumOK s = true := by
  simp only [wireWellFormed, Bool.and_eq_true, decide_eq_true_eq, beq_iff_eq, MIN_FRAME_eq, and_assoc]

theorem wireWellFormed_frameBytes (t : Byte) {p : List Byte} (h : p.length ≤ 255) :
    wireWellFormed (frameBytes t p) = true :=
  (wireWellFormed_iff _).2 ⟨isCandidate_frameBytes t h, checksumOK_frameBytes t p⟩

/-- A candidate passes exactly when all of its bytes but START cancel. -/
theorem checksumOK_iff_checksum_eq_start {c : List Byte} (h : IsCandidate c) :
    checksumOK c = true ↔ checksum c = START := by
  obtain ⟨t, l, p, ck, rfl⟩ : ∃ t l p ck, c = [START, t, l] ++ p ++ [ck] :=
    ⟨_, _, _, exists_layout_of_isCandidate h⟩
  have hstart : checksum ([START, t, l] ++ p ++ [ck]) =
      START ^^^ checksum (([START, t, l] ++ p ++ [ck]).drop 1) := checksum_cons START _
  rw [checksumOK_layout, hstart, xor_left_eq_self_iff, checksum_drop_one_layout]
  exact BitVec.xor_eq_zero_iff.symm

/-- START, LENGTH and the number of bytes make a candidate. -/
theorem isCandidate_of_same_layout {c e : List Byte} (h : IsCandidate c) (hlen : e.length = c.length)
    (hstart : byteAt e 0 = byteAt c 0) (hlength : byteAt e 2 = byteAt c 2) : IsCandidate e := by
  rw [IsCandidate, hlen, hstart, lengthByte, hlength]
  exact h

/-- A corruption that leaves START and LENGTH alone passes exactly when it keeps the fold (R75). -/
theorem checksumOK_iff_of_same_layout {c e : List Byte} (h : IsCandidate c) (hsum : checksumOK c = true)
    (hlen : e.length = c.length) (hstart : byteAt e 0 = byteAt c 0) (hlength : byteAt e 2 = byteAt c 2) :
    checksumOK e = true ↔ checksum e = checksum c := by
  rw [checksumOK_iff_checksum_eq_start (isCandidate_of_same_layout h hlen hstart hlength),
    (checksumOK_iff_checksum_eq_start h).1 hsum]

/-! ### The obligations -/

/-- Settles O1: the byte's occurrences, being even in number, cancel. -/
theorem checksumIsOrderFreeXorFold : Obligations.ChecksumIsOrderFreeXorFold :=
  ⟨checksum_nil, checksum_snoc, fun _ _ => checksum_perm,
    fun _ _ heven => checksum_filter_ne_of_even_count (Nat.even_iff.2 heven)⟩

/-- Settles O2, law by law. -/
theorem checksumAlgebraicLaws : Obligations.ChecksumAlgebraicLaws :=
  ⟨checksum_append, fun _ _ => checksum_perm, checksum_append_checksum, checksum_append_pair⟩

/-- Settles O5: a candidate that passes is the frame built from its TYPE byte and payload. -/
theorem wellFormedSequencesAreBuiltFrames : Obligations.WellFormedSequencesAreBuiltFrames := by
  intro s
  constructor
  · intro hwf
    obtain ⟨hcand, hsum⟩ := (wireWellFormed_iff s).1 hwf
    refine ⟨typeByte s, payloadBytes s, ?_⟩
    rw [buildFrame_of_fits _ (payloadBytes_length_le s), ← eq_frameBytes_of_checksumOK hcand hsum]
  · rintro ⟨t, p, hbuild⟩
    obtain ⟨hp, rfl⟩ := eq_frameBytes_of_buildFrame hbuild
    exact wireWellFormed_frameBytes t hp

/-- Settles O6: deltas change the fold by their own XOR, one changed byte by old XOR new, and a swap not
at all. -/
theorem checksumDetectsExactlyNonCancellingDeltas : Obligations.ChecksumDetectsExactlyNonCancellingDeltas := by
  intro c hcand hsum
  refine ⟨fun d hlen h0 h2 => ?deltas, fun i b hi hi0 hi2 hb => ?oneByte,
    fun i j hi hj hi0 hi2 hj0 hj2 => ?swap⟩
  case deltas =>
    rw [← Bool.not_eq_true, checksumOK_iff_of_same_layout hcand hsum (by simp [hlen])
      (byteAt_zipWith_xor_of_zero hlen h0) (byteAt_zipWith_xor_of_zero hlen h2), checksum_zipWith_xor hlen,
      xor_left_eq_self_iff]
    rfl
  case oneByte =>
    rw [← Bool.not_eq_true, checksumOK_iff_of_same_layout hcand hsum List.length_set
      (byteAt_set_ne hi0 c b) (byteAt_set_ne hi2 c b)]
    intro hsame
    have hset := checksum_set hi b
    rw [hsame, BitVec.xor_left_inj] at hset
    exact hb hset.symm
  case swap =>
    refine (checksumOK_iff_of_same_layout hcand hsum (by simp) ?_ ?_).2 (checksum_swap hi hj)
    · rw [byteAt_set_ne hj0, byteAt_set_ne hi0]
    · rw [byteAt_set_ne hj2, byteAt_set_ne hi2]

/-- Settles O4: the builder's one test is on the payload's length. -/
theorem frameBuilderMakesWellFormedFrames : Obligations.FrameBuilderMakesWellFormedFrames := fun t _ =>
  ⟨buildFrame_of_oversized t, fun hp => ⟨buildFrame_of_fits t hp, wireWellFormed_frameBytes t hp⟩⟩

end Sys2Proof.Machine

/-! ## ACCEPT: the byte taken, dropped or left at the port (42_accept.md) -/

namespace Sys2Proof.Machine

/-! ### The three ways of an ACCEPT (R77 to R79) -/

/-- Inversion: what an ACCEPT leads to, with the guard of each case. -/
theorem Effect.push_cases {b : Byte} {s t : State} (he : Effect (.push b) s t) :
    (s.wcnt < s.cfg.rxCap ∧ t = s.appendByte b) ∨
    (s.cfg.rxCap ≤ s.wcnt ∧ s.cfg.ovfPolicy = .drop ∧ t = s.countDropped) ∨
    (s.cfg.rxCap ≤ s.wcnt ∧ s.cfg.ovfPolicy = .backpressure ∧ t = s) := by
  generalize hi : Instr.push b = i at he
  cases he with
  | stored c room =>
    cases hi
    exact .inl ⟨room, rfl⟩
  | dropped c full policy => exact .inr (.inl ⟨full, policy, rfl⟩)
  | notTaken c full policy => exact .inr (.inr ⟨full, policy, rfl⟩)
  | short | resync | incomplete | valid | invalid | clear | handler | reserved | reset => cases hi
  | frame k p =>
    have hop : (Instr.ofFrame k p).isOperation = true := hi ▸ rfl
    simp at hop

/-! ### in_ready (R78) -/

theorem State.inReady_of_rstAsserted {s : State} (h : s.rstAsserted = true) : s.inReady = false := by
  rw [State.inReady, h]
  rfl

/-- Outside reset, in_ready says whether the byte would be taken. -/
theorem State.inReady_of_not_rstAsserted {s : State} (h : s.rstAsserted = false) : s.inReady = s.takesByte := by
  rw [State.inReady, h]
  rfl

theorem State.takesByte_of_drop {s : State} (h : s.cfg.ovfPolicy = .drop) : s.takesByte = true := by
  rw [State.takesByte, h]

theorem State.takesByte_of_backpressure {s : State} (h : s.cfg.ovfPolicy = .backpressure) :
    s.takesByte = decide (s.wcnt < s.cfg.rxCap) := by
  rw [State.takesByte, h, State.hasRoom]

/-! ### The obligations -/

/-- Settles O20: of the three ways of an ACCEPT one appends, two leave the window's bytes, and none writes a
field the statement names. -/
theorem acceptOnlyAppendsAndProcessesNothing : Obligations.AcceptOnlyAppendsAndProcessesNothing := by
  intro b s
  obtain ⟨t, he⟩ := exists_effect_push b s
  refine ⟨t, he.exec, ?_⟩
  rcases he.push_cases with ⟨-, rfl⟩ | ⟨-, -, rfl⟩ | ⟨-, -, rfl⟩
  · exact ⟨.inl (State.appendByte_bytes s b), by simp⟩
  · exact ⟨.inr (State.countDropped_bytes s), by simp⟩
  · exact ⟨.inr rfl, by simp⟩

/-- Settles O18: each clause is one way of an ACCEPT, and the stored byte is read back by the rules of a
memory write. -/
theorem acceptStoresOrDropsTheByte : Obligations.AcceptStoresOrDropsTheByte := by
  intro b s
  refine ⟨fun room => ?stored, fun full policy => (Effect.dropped b full policy).exec,
    fun full policy => (Effect.notTaken b full policy).exec⟩
  case stored =>
    exact ⟨s.win.write s.wcnt b, (Effect.stored b room).exec, Memory.read_write_same s.win s.wcnt b,
      fun _ ha => Memory.read_write_other ha⟩

/-- Settles O19: reset first, then the policy. -/
theorem inReadyFollowsPolicyAndReset : Obligations.InReadyFollowsPolicyAndReset := by
  intro s
  refine ⟨State.inReady_of_rstAsserted, fun hrst policy => ?drop, fun hrst policy => ?backpressure⟩
  case drop => rw [State.inReady_of_not_rstAsserted hrst, State.takesByte_of_drop policy]
  case backpressure =>
    rw [State.inReady_of_not_rstAsserted hrst, State.takesByte_of_backpressure policy, decide_eq_true_iff]

end Sys2Proof.Machine

/-! ## POLL: deferral, extraction and progress (43_poll.md) -/

namespace Sys2Proof.Machine

/-! ### The window behind noise (R83) -/

theorem State.synced_of_noise {s : State} {noise rest : List Byte} (hbytes : s.bytes = noise ++ rest)
    (hnoise : START ∉ noise) (hrest : rest = [] ∨ byteAt rest 0 = START) : s.synced = rest := by
  rw [State.synced, hbytes]
  exact dropWhile_noise hnoise hrest

theorem State.synced_of_start {s : State} (h : byteAt s.bytes 0 = START) : s.synced = s.bytes :=
  State.synced_of_noise (noise := []) rfl List.not_mem_nil (.inr h)

theorem State.synced_suffix (s : State) : s.synced <:+ s.bytes := List.dropWhile_suffix _

theorem State.synced_length_le (s : State) : s.synced.length ≤ s.wcnt := by
  simpa using s.synced_suffix.length_le

/-- A header's worth of synchronised bytes begins with START. -/
theorem State.synced_start {s : State} (h : 4 ≤ s.synced.length) : byteAt s.synced 0 = START :=
  s.synced_head.resolve_left fun hnil => absurd h (by simp [hnil])

/-- WIN[0..WCNT) read back as the window's sequence. -/
theorem State.prefixBytes_win {s : State} {w : List Byte} (h : s.bytes = w) : s.win.prefixBytes w.length = w := by
  subst h
  rw [State.length_bytes, State.bytes_eq]

/-- Resync writes WIN and WCNT only. -/
theorem State.resynced_eq (s : State) :
    s.resynced = { s with win := s.resynced.win, wcnt := s.synced.length } := by
  rw [← State.resynced_wcnt]
  rfl

/-- Removing noise and candidate leaves the bytes behind them, and writes WIN and WCNT only. -/
theorem State.extracted_eq_of_bytes {s : State} {tail : List Byte} (h : s.extracted.bytes = tail) :
    s.extracted = { s with win := s.extracted.win, wcnt := tail.length } := by
  rw [← h, State.extracted_bytes]
  exact s.extracted_eq

/-! ### A POLL in its five ways (R82 to R88) -/

/-- Inversion: what a POLL leads to, with the guard of each case. -/
theorem Effect.poll_cases {x : Bool} {s t : State} (he : Effect (.poll x) s t) :
    (s.wcnt < 4 ∧ t = s.setResult .deferShort) ∨
    (4 ≤ s.wcnt ∧ s.synced.length < 4 ∧ t = s.resynced.setResult .deferResync) ∨
    (4 ≤ s.synced.length ∧ s.synced.length < seqLength s.synced ∧ t = s.resynced.setResult .deferPartial) ∨
    (seqLength s.synced ≤ s.synced.length ∧
      t = s.extracted.deliver (typeByte s.synced) (payloadBytes (s.synced.take (seqLength s.synced)))) ∨
    (seqLength s.synced ≤ s.synced.length ∧ t = s.extracted.countInvalid.setResult .invalid) := by
  generalize hi : Instr.poll x = i at he
  cases he with
  | short y few => exact .inl ⟨few, rfl⟩
  | resync y enough few => exact .inr (.inl ⟨enough, few, rfl⟩)
  | incomplete y enough header few => exact .inr (.inr (.inl ⟨header, few, rfl⟩))
  | valid y enough complete => exact .inr (.inr (.inr (.inl ⟨complete, rfl⟩)))
  | invalid y enough complete => exact .inr (.inr (.inr (.inr ⟨complete, rfl⟩)))
  | stored | dropped | notTaken | clear | handler | reserved | reset => cases hi
  | frame k p =>
    have hop : (Instr.ofFrame k p).isOperation = true := hi ▸ rfl
    simp at hop

theorem State.deliver_events_cases (s : State) (t : Byte) (p : List Byte) :
    (s.deliver t p).events = s.events ∨ ∃ e, (s.deliver t p).events = s.events ++ [e] := by
  cases h : s.handlerEn with
  | true => exact .inr ⟨_, State.deliver_events h t p⟩
  | false => exact .inl (by rw [State.deliver_off h])

theorem State.deliver_wcnt (s : State) (t : Byte) (p : List Byte) : (s.deliver t p).wcnt = s.wcnt := by
  simp

/-- A delivery is no deferral (R87). -/
theorem State.deliver_not_isDefer (s : State) (t : Byte) (p : List Byte) :
    (s.deliver t p).lastResult.isDefer = false := by
  rcases s.deliver_lastResult_cases t p with h | h <;> rw [h] <;> rfl

/-- Extraction takes the candidate's bytes off the front, at least four (R86). -/
theorem State.extracted_wcnt_add_le {s : State} (h : seqLength s.synced ≤ s.synced.length) :
    s.extracted.wcnt + 4 ≤ s.wcnt := by
  have hmin := four_le_seqLength s.synced
  have hle := s.synced_length_le
  have hcount : s.extracted.wcnt = s.synced.length - seqLength s.synced := by
    rw [← State.length_bytes, State.extracted_bytes, List.length_drop]
  omega

/-- POLL removes bytes only from the front (R90). -/
theorem Effect.poll_bytes_suffix {x : Bool} {s t : State} (he : Effect (.poll x) s t) : t.bytes <:+ s.bytes := by
  have hresynced : s.resynced.bytes <:+ s.bytes := s.resynced_bytes ▸ s.synced_suffix
  have hextracted : s.extracted.bytes <:+ s.bytes :=
    s.extracted_bytes ▸ (List.drop_suffix _ _).trans s.synced_suffix
  rcases he.poll_cases with ⟨-, rfl⟩ | ⟨-, -, rfl⟩ | ⟨-, -, rfl⟩ | ⟨-, rfl⟩ | ⟨-, rfl⟩
  · exact List.suffix_refl _
  · exact hresynced
  · exact hresynced
  · rwa [State.deliver_bytes]
  · exact hextracted

/-! ### Part of a frame behind noise (R82, R84, R85) -/

/-- A POLL on noise and an incomplete frame behind it defers, and removes nothing but noise. -/
theorem exists_effect_poll_of_part (x : Bool) {s : State} {noise part : List Byte}
    (hbytes : s.bytes = noise ++ part) (hnoise : START ∉ noise) (hstart : part = [] ∨ byteAt part 0 = START)
    (hpart : part.length < seqLength part) :
    ∃ t, Effect (.poll x) s t ∧ t.lastResult.isDefer = true ∧
      ∃ noise', START ∉ noise' ∧ t.bytes = noise' ++ part := by
  have hsync := State.synced_of_noise hbytes hnoise hstart
  have hleft : s.resynced.bytes = [] ++ part := s.resynced_bytes.trans hsync
  by_cases few : s.wcnt < 4
  · exact ⟨_, .short x few, rfl, noise, hnoise, hbytes⟩
  by_cases header : part.length < 4
  · exact ⟨_, .resync x (not_lt.1 few) (by rwa [hsync]), rfl, [], List.not_mem_nil, hleft⟩
  · exact ⟨_, .incomplete x (not_lt.1 few) (by rw [hsync]; omega) (by rwa [hsync]), rfl, [], List.not_mem_nil, hleft⟩

theorem byteAt_append_left {c : List Byte} {i : Nat} (h : i < c.length) (rest : List Byte) :
    byteAt (c ++ rest) i = byteAt c i :=
  List.getD_append c rest _ i h

/-- The first bytes of a candidate, but not all of them, are an incomplete frame. -/
theorem part_of_isCandidate {part rest : List Byte} (hc : IsCandidate (part ++ rest)) (hrest : rest ≠ []) :
    (part = [] ∨ byteAt part 0 = START) ∧ part.length < seqLength part := by
  obtain ⟨-, hstart, hlen⟩ := hc
  have hrestLen := List.length_pos_iff.2 hrest
  constructor
  · by_cases hnil : part = []
    · exact .inl hnil
    · exact .inr ((byteAt_append_left (List.length_pos_iff.2 hnil) rest).symm.trans hstart)
  · by_cases header : part.length < 4
    · exact header.trans_le (four_le_seqLength part)
    · have hdeclared : frameLength (lengthByte (part ++ rest)) = seqLength part :=
        congrArg frameLength (byteAt_append_left (by omega) rest)
      rw [hdeclared, List.length_append] at hlen
      omega

/-- POLL discards the noise, removes the failing candidate and counts it (R83, R86, R88). -/
theorem effect_poll_of_bad_candidate {s : State} {noise c tail : List Byte} (x : Bool)
    (hnoise : START ∉ noise) (hc : IsCandidate c) (hbad : checksumOK c = false)
    (hbytes : s.bytes = noise ++ c ++ tail) :
    Effect (.poll x) s (s.extracted.countInvalid.setResult .invalid) ∧ s.extracted.bytes = tail := by
  obtain ⟨hmin, hstart, hdeclared⟩ := hc
  rw [MIN_FRAME_eq] at hmin
  have hsync : s.synced = c ++ tail := by
    refine State.synced_of_noise (hbytes.trans (List.append_assoc ..)) hnoise (.inr ?_)
    rw [byteAt_append_left (by omega), hstart]
  have hlen : seqLength s.synced = c.length := by
    rw [hsync, hdeclared]
    exact congrArg frameLength (byteAt_append_left (by omega) tail)
  have hcomplete : seqLength s.synced ≤ s.synced.length := by rw [hlen, hsync]; simp
  have henough : 4 ≤ s.wcnt := by
    have hle := s.synced_length_le
    omega
  constructor
  · exact Effect.invalid x henough hcomplete (by rw [hlen, hsync, List.take_left]; exact hbad)
  · rw [State.extracted_bytes, hlen, hsync, List.drop_left]

/-! ### Windows that POLL leaves alone (R90) -/

/-- The window holds at most three bytes, or a partial frame at its front. -/
def State.Settled (s : State) : Prop :=
  s.wcnt ≤ 3 ∨ (byteAt s.bytes 0 = START ∧ s.wcnt < seqLength s.bytes)

theorem State.settled_congr {s t : State} (h : t.bytes = s.bytes) : t.Settled ↔ s.Settled := by
  rw [State.Settled, State.Settled, ← State.length_bytes, ← State.length_bytes, h]

theorem Effect.poll_bytes_of_settled {x : Bool} {s t : State} (he : Effect (.poll x) s t) (h : s.Settled) :
    t.bytes = s.bytes := by
  rcases he.poll_cases with ⟨-, rfl⟩ | hlong
  · exact State.setResult_bytes s _
  have hwcnt : 4 ≤ s.wcnt := by
    have hle := s.synced_length_le
    have hmin := four_le_seqLength s.synced
    omega
  obtain ⟨hstart, hpart⟩ := h.resolve_left (by omega)
  have hsync := State.synced_of_start hstart
  have hlen : s.synced.length = s.wcnt := by rw [hsync, State.length_bytes]
  rw [← hsync] at hpart
  rcases hlong with ⟨-, few, -⟩ | ⟨-, -, rfl⟩ | ⟨complete, -⟩ | ⟨complete, -⟩
  · omega
  · exact s.resynced_bytes.trans hsync
  · omega
  · omega

/-- Any other window gets shorter (R90). -/
theorem Effect.poll_wcnt_lt {x : Bool} {s t : State} (he : Effect (.poll x) s t) (h : ¬ s.Settled) :
    t.wcnt < s.wcnt := by
  obtain ⟨hwcnt, hwhole⟩ := not_or.1 h
  rcases he.poll_cases with ⟨few, -⟩ | ⟨enough, few, rfl⟩ | ⟨header, part, rfl⟩ | ⟨complete, rfl⟩ | ⟨complete, rfl⟩
  · omega
  · rw [State.setResult_wcnt, State.resynced_wcnt]
    omega
  · rw [State.setResult_wcnt, State.resynced_wcnt]
    refine lt_of_le_of_ne s.synced_length_le fun hlen => hwhole ?_
    have hsync : s.synced = s.bytes := s.synced_suffix.eq_of_length (by rw [hlen, State.length_bytes])
    rw [hlen, hsync] at part
    exact ⟨hsync ▸ State.synced_start header, part⟩
  · have hdrop := State.extracted_wcnt_add_le complete
    rw [State.deliver_wcnt]
    omega
  · have hdrop := State.extracted_wcnt_add_le complete
    rw [State.setResult_wcnt, State.countInvalid_wcnt]
    omega

theorem Effect.poll_settled {x : Bool} {s t : State} (he : Effect (.poll x) s t) (h : s.Settled) : t.Settled :=
  (State.settled_congr (he.poll_bytes_of_settled h)).2 h

/-! ### Runs of operations (20_memory.md R48) -/

/-- What one operation of a kind keeps, a run of them keeps. -/
theorem runOps_keeps {P : State → Prop} {kind : Instr → Prop}
    (hstep : ∀ i s, kind i → P s → ∃ t, Effect i s t ∧ P t) (ops : List Instr) (s : State)
    (hops : ∀ i ∈ ops, kind i) (hs : P s) : ∃ t, runOps ops s = .next t ∧ P t := by
  induction ops generalizing s with
  | nil => exact ⟨s, rfl, hs⟩
  | cons i ops ih =>
    obtain ⟨hi, hrest⟩ := List.forall_mem_cons.1 hops
    obtain ⟨t, he, ht⟩ := hstep i s hi hs
    obtain ⟨u, hrun, hu⟩ := ih t hrest ht
    exact ⟨u, (he.runOps_cons ops).trans hrun, hu⟩

/-- One after the other: the second list runs on the state the first one leaves. -/
theorem runOps_append {a : List Instr} {s u : State} (h : runOps a s = .next u) (c : List Instr) :
    runOps (a ++ c) s = runOps c u := by
  induction a generalizing s with
  | nil =>
    cases h
    rfl
  | cons i a ih =>
    cases hexec : exec i s with
    | next t =>
      rw [runOps, hexec] at h
      rw [List.cons_append, runOps, hexec]
      exact ih h
    | fault f => exact nomatch f
    | refused r =>
      rw [runOps, hexec] at h
      cases h

/-- As many POLLs as there are bytes settle the window: until it is settled each removes one. -/
theorem runOps_polls_settled (n : Nat) (s : State) (h : s.Settled ∨ s.wcnt ≤ n) :
    ∃ t, runOps (List.replicate n (.poll false)) s = .next t ∧ t.Settled := by
  induction n generalizing s with
  | zero => exact ⟨s, rfl, h.elim id fun hempty => .inl (by omega)⟩
  | succ n ih =>
    obtain ⟨t, he⟩ := exists_effect_poll false s
    have ht : t.Settled ∨ t.wcnt ≤ n := by
      by_cases hs : s.Settled
      · exact .inl (he.poll_settled hs)
      · have hlt := he.poll_wcnt_lt hs
        have hle := h.resolve_left hs
        exact .inr (by omega)
    obtain ⟨u, hrun, hu⟩ := ih t ht
    exact ⟨u, (he.runOps_cons _).trans hrun, hu⟩

/-! ### Operations that complete no frame (R89, R92, R93) -/

/-- No candidate was counted and no frame dispatched from `s` to `t`. -/
structure State.NoFrameTo (s t : State) : Prop where
  cfg : t.cfg = s.cfg
  rxFrames : t.rxFrames = s.rxFrames
  rxInvalid : t.rxInvalid = s.rxInvalid
  events : t.events = s.events
  dspType : t.dspType = s.dspType
  dspLen : t.dspLen = s.dspLen
  dspPayload : t.dspPayload = s.dspPayload

theorem State.NoFrameTo.refl (s : State) : s.NoFrameTo s := ⟨rfl, rfl, rfl, rfl, rfl, rfl, rfl⟩

theorem State.NoFrameTo.trans {s t u : State} (h : s.NoFrameTo t) (h' : t.NoFrameTo u) : s.NoFrameTo u where
  cfg := h'.cfg.trans h.cfg
  rxFrames := h'.rxFrames.trans h.rxFrames
  rxInvalid := h'.rxInvalid.trans h.rxInvalid
  events := h'.events.trans h.events
  dspType := h'.dspType.trans h.dspType
  dspLen := h'.dspLen.trans h.dspLen
  dspPayload := h'.dspPayload.trans h.dspPayload

/-- An operation completes no frame, but for RESET, which clears its traces, and a POLL that does not
defer. -/
theorem Effect.noFrameTo {i : Instr} {s t : State} (he : Effect i s t) (hop : i.isOperation = true)
    (hreset : i ≠ .reset) (hdefer : (∀ x, i ≠ .poll x) ∨ t.lastResult.isDefer = true) : s.NoFrameTo t := by
  cases he with
  | valid x =>
    have hres := hdefer.resolve_left fun hpoll => hpoll x rfl
    simp [State.deliver_not_isDefer] at hres
  | invalid x => exact absurd (hdefer.resolve_left fun hpoll => hpoll x rfl) nofun
  | reset => exact absurd rfl hreset
  | frame k p => simp at hop
  | stored | dropped | notTaken | short | resync | incomplete | clear | handler | reserved =>
    exact ⟨rfl, rfl, rfl, rfl, rfl, rfl, rfl⟩

/-- A full window whose front frame is longer than the window (R92). -/
structure State.Oversized (s : State) : Prop where
  header : 4 ≤ s.wcnt
  full : s.cfg.rxCap ≤ s.wcnt
  start : byteAt s.bytes 0 = START
  part : s.wcnt < seqLength s.bytes

theorem State.Oversized.congr {s t : State} (h : s.Oversized) (hbytes : t.bytes = s.bytes) (hcfg : t.cfg = s.cfg) :
    t.Oversized := by
  have hwcnt : t.wcnt = s.wcnt := by rw [← State.length_bytes, hbytes, State.length_bytes]
  obtain ⟨header, full, start, part⟩ := h
  exact ⟨by rwa [hwcnt], by rwa [hwcnt, hcfg], by rwa [hbytes], by rwa [hwcnt, hbytes]⟩

theorem State.Oversized.effect_poll {s : State} (h : s.Oversized) (x : Bool) :
    Effect (.poll x) s (s.resynced.setResult .deferPartial) := by
  have hsync := State.synced_of_start h.start
  have hlen : s.synced.length = s.wcnt := by rw [hsync, State.length_bytes]
  exact .incomplete x h.header (by rw [hlen]; exact h.header) (by rw [hlen, hsync]; exact h.part)

theorem State.Oversized.resynced_bytes {s : State} (h : s.Oversized) : s.resynced.bytes = s.bytes :=
  (State.resynced_bytes s).trans (State.synced_of_start h.start)

/-- Nothing but CLEAR and RESET moves an oversized frame (R92). -/
theorem State.Oversized.exists_effect {s : State} (h : s.Oversized) {i : Instr} (hop : i.isOperation = true)
    (hkeep : i.isCancel = false) : ∃ t, Effect i s t ∧ s.NoFrameTo t ∧ t.bytes = s.bytes := by
  have hfull := h.full
  induction i using Instr.operationOrFrame with
  | push b =>
    obtain ⟨t, he⟩ := exists_effect_push b s
    refine ⟨t, he, he.noFrameTo rfl nofun (.inl nofun), ?_⟩
    rcases he.push_cases with ⟨room, -⟩ | ⟨-, -, rfl⟩ | ⟨-, -, rfl⟩
    · omega
    · exact State.countDropped_bytes s
    · rfl
  | poll x => exact ⟨_, h.effect_poll x, (h.effect_poll x).noFrameTo rfl nofun (.inr rfl), h.resynced_bytes⟩
  | handler en => exact ⟨_, .handler en, (Effect.handler en).noFrameTo rfl nofun (.inl nofun), rfl⟩
  | reserved x => exact ⟨_, .reserved x, .refl s, rfl⟩
  | clear x => cases hkeep
  | reset => cases hkeep
  | frame k p => simp at hop

/-- A byte other than START, or a POLL, on a window without START leaves one without START (R93). -/
theorem exists_effect_of_noise {i : Instr} {s : State} (hdel : i.isDelivery = true) (hi : i ≠ .push START)
    (hs : START ∉ s.bytes) : ∃ t, Effect i s t ∧ s.NoFrameTo t ∧ START ∉ t.bytes := by
  induction i using Instr.operationOrFrame with
  | push b =>
    obtain ⟨t, he⟩ := exists_effect_push b s
    refine ⟨t, he, he.noFrameTo rfl nofun (.inl nofun), ?_⟩
    have hb : START ≠ b := fun h => hi (h ▸ rfl)
    rcases he.push_cases with ⟨-, rfl⟩ | ⟨-, -, rfl⟩ | ⟨-, -, rfl⟩
    · rw [State.appendByte_bytes]
      simp [hs, hb]
    · exact hs
    · exact hs
  | poll x =>
    obtain ⟨t, he, hdefer, noise, hnoise, hbytes⟩ :=
      exists_effect_poll_of_part x (part := []) (List.append_nil s.bytes).symm hs (.inl rfl) (by simp [seqLength])
    refine ⟨t, he, he.noFrameTo rfl nofun (.inr hdefer), ?_⟩
    rwa [hbytes, List.append_nil]
  | clear | handler | reserved | reset => cases hdel
  | frame k p => cases k <;> cases hdel

/-! ### A frame in chunks (R94) -/

@[simp] theorem pushedBytes_append (a c : List Instr) : pushedBytes (a ++ c) = pushedBytes a ++ pushedBytes c :=
  List.filterMap_append

@[simp] theorem pushedBytes_push (b : Byte) : pushedBytes [.push b] = [b] := rfl

@[simp] theorem pushedBytes_poll (x : Bool) : pushedBytes [.poll x] = [] := rfl

theorem mem_pushedBytes {ops : List Instr} {b : Byte} (h : .push b ∈ ops) : b ∈ pushedBytes ops :=
  List.mem_filterMap.2 ⟨_, h, rfl⟩

/-- No byte of a run is lost: its first operation completes and loses none, and the others after it. -/
theorem noByteLost_cons (i : Instr) (ops : List Instr) (s : State) :
    noByteLost (i :: ops) s = true ↔
      ∃ t, exec i s = .next t ∧ noByteLost [i] s = true ∧ noByteLost ops t = true := by
  rw [noByteLost.eq_def (i :: ops), noByteLost.eq_def [i]]
  cases hexec : exec i s with
  | next t => simp [noByteLost, hexec]
  | fault f => exact nomatch f
  | refused r => simp [hexec]

/-- Where no byte of a run is lost, its first part completes and none is lost in either part. -/
theorem noByteLost_append {a c : List Instr} {s : State} (h : noByteLost (a ++ c) s = true) :
    ∃ u, runOps a s = .next u ∧ noByteLost a s = true ∧ noByteLost c u = true := by
  induction a generalizing s with
  | nil => exact ⟨s, rfl, rfl, h⟩
  | cons i a ih =>
    obtain ⟨t, hexec, hi, hrest⟩ := (noByteLost_cons i (a ++ c) s).1 h
    obtain ⟨u, hrun, ha, hc⟩ := ih hrest
    exact ⟨u, ((effect_of_exec hexec).runOps_cons a).trans hrun, (noByteLost_cons i a s).2 ⟨t, hexec, hi, ha⟩, hc⟩

theorem room_of_noByteLost {b : Byte} {s : State} (h : noByteLost [.push b] s = true) : s.wcnt < s.cfg.rxCap :=
  of_decide_eq_true (Bool.and_eq_true_iff.1 h).1

/-- From `s` to `t` the bytes `part` of a frame have arrived, behind noise, and nothing else has happened. -/
structure State.HasReceived (s t : State) (part : List Byte) : Prop where
  window : ∃ noise, START ∉ noise ∧ t.bytes = noise ++ part
  noFrame : s.NoFrameTo t
  rxDropped : t.rxDropped = s.rxDropped
  handlerEn : t.handlerEn = s.handlerEn

theorem State.HasReceived.appendByte {s t : State} {part : List Byte} (h : s.HasReceived t part) (b : Byte) :
    s.HasReceived (t.appendByte b) (part ++ [b]) := by
  obtain ⟨⟨noise, hnoise, hbytes⟩, hframe, hdropped, hen⟩ := h
  refine ⟨⟨noise, hnoise, ?_⟩, hframe.trans ⟨rfl, rfl, rfl, rfl, rfl, rfl, rfl⟩, hdropped, hen⟩
  rw [State.appendByte_bytes, hbytes, List.append_assoc]

theorem Effect.poll_rxDropped_handlerEn {x : Bool} {s t : State} (he : Effect (.poll x) s t) :
    t.rxDropped = s.rxDropped ∧ t.handlerEn = s.handlerEn := by
  rcases he.poll_cases with ⟨-, rfl⟩ | ⟨-, -, rfl⟩ | ⟨-, -, rfl⟩ | ⟨-, rfl⟩ | ⟨-, rfl⟩ <;> simp

/-- While the frame is incomplete a POLL defers and removes none of its bytes. -/
theorem State.HasReceived.exists_effect_poll {s t : State} {part rest : List Byte} (h : s.HasReceived t part)
    (hc : IsCandidate (part ++ rest)) (hrest : rest ≠ []) (x : Bool) :
    ∃ u, Effect (.poll x) t u ∧ u.lastResult.isDefer = true ∧ s.HasReceived u part := by
  obtain ⟨⟨noise, hnoise, hbytes⟩, hframe, hdropped, hen⟩ := h
  obtain ⟨hstart, hpart⟩ := part_of_isCandidate hc hrest
  obtain ⟨u, he, hdefer, hwindow⟩ := exists_effect_poll_of_part x hbytes hnoise hstart hpart
  obtain ⟨hdropped', hen'⟩ := he.poll_rxDropped_handlerEn
  exact ⟨u, he, hdefer, hwindow, hframe.trans (he.noFrameTo rfl nofun (.inr hdefer)), hdropped'.trans hdropped,
    hen'.trans hen⟩

theorem ofNat_payloadBytes_length {c : List Byte} (h : IsCandidate c) :
    BitVec.ofNat 8 (payloadBytes c).length = lengthByte c := by
  rw [payloadBytes_length h, BitVec.ofNat_toNat, BitVec.setWidth_eq]

/-- When all of a valid frame has arrived a POLL delivers it and empties the window (R87). -/
theorem State.HasReceived.effect_poll_of_wireWellFormed {s t : State} {f : List Byte} (h : s.HasReceived t f)
    (hwf : wireWellFormed f = true) (x : Bool) :
    Effect (.poll x) t (t.extracted.deliver (typeByte f) (payloadBytes f)) ∧ t.extracted.bytes = [] := by
  obtain ⟨hcand, hsum⟩ := (wireWellFormed_iff f).1 hwf
  obtain ⟨noise, hnoise, hbytes⟩ := h.window
  refine effect_poll_of_frame x hnoise (payloadBytes_length_le f) ?_
  rw [hbytes, ← eq_frameBytes_of_checksumOK hcand hsum, List.append_nil]

/-- Every delivery of part of a frame, by induction over the operations from the last one back. -/
theorem runOps_of_part {s : State} (hs : START ∉ s.bytes) (ops : List Instr) (rest : List Byte)
    (hdel : ∀ i ∈ ops, i.isDelivery = true) (hroom : noByteLost ops s = true)
    (hc : IsCandidate (pushedBytes ops ++ rest)) (hrest : rest ≠ []) :
    ∃ u, runOps ops s = .next u ∧ s.HasReceived u (pushedBytes ops) ∧
      ∀ a x, ops = a ++ [.poll x] → u.lastResult.isDefer = true := by
  induction ops using List.reverseRecOn generalizing rest with
  | nil =>
    exact ⟨s, rfl, ⟨⟨s.bytes, hs, (List.append_nil _).symm⟩, .refl s, rfl, rfl⟩, fun a x h => by simp at h⟩
  | append_singleton ops i ih =>
    obtain ⟨t', hrun', hroom', hlast⟩ := noByteLost_append hroom
    rw [pushedBytes_append, List.append_assoc] at hc
    have hdel' : ∀ j ∈ ops, j.isDelivery = true := fun j hj => hdel j (List.mem_append_left _ hj)
    obtain ⟨t, hrun, ht, -⟩ := ih (pushedBytes [i] ++ rest) hdel' hroom' hc (by simp [hrest])
    obtain rfl : t' = t := Host.Outcome.next.inj (hrun'.symm.trans hrun)
    have hi : i.isDelivery = true := hdel i (by simp)
    induction i using Instr.operationOrFrame with
    | push b =>
      have he := Effect.stored b (room_of_noByteLost hlast)
      refine ⟨_, (runOps_append hrun _).trans (he.runOps_cons []), ?_, fun a x h => ?_⟩
      · rw [pushedBytes_append, pushedBytes_push]
        exact ht.appendByte b
      · simp at h
    | poll x =>
      obtain ⟨u, he, hdefer, hu⟩ := ht.exists_effect_poll hc hrest x
      refine ⟨u, (runOps_append hrun _).trans (he.runOps_cons []), ?_, fun _ _ _ => hdefer⟩
      rw [pushedBytes_append, pushedBytes_poll, List.append_nil]
      exact hu
    | clear | handler | reserved | reset => cases hi
    | frame k p => cases k <;> cases hi

/-- After the last byte all of the frame has arrived, and no POLL has counted it yet. -/
theorem runOps_of_frame {s : State} {f : List Byte} {ops : List Instr} {b : Byte} (hs : START ∉ s.bytes)
    (hdel : ∀ i ∈ ops, i.isDelivery = true) (hf : pushedBytes ops ++ [b] = f) (hc : IsCandidate f)
    (hroom : noByteLost (ops ++ [.push b]) s = true) :
    ∃ u, runOps (ops ++ [.push b]) s = .next u ∧ s.HasReceived u f := by
  subst hf
  obtain ⟨t', hrun', hroom', hlast⟩ := noByteLost_append hroom
  obtain ⟨t, hrun, ht, -⟩ := runOps_of_part hs ops [b] hdel hroom' hc (by simp)
  obtain rfl : t' = t := Host.Outcome.next.inj (hrun'.symm.trans hrun)
  have he := Effect.stored b (room_of_noByteLost hlast)
  exact ⟨_, (runOps_append hrun _).trans (he.runOps_cons []), ht.appendByte b⟩

/-! ### The obligations -/

/-- Settles O34: until the window is settled each POLL removes a byte, and from then on none does. -/
theorem pollsReachAFixedPoint : Obligations.PollsReachAFixedPoint := by
  intro s
  obtain ⟨t, hrun, ht⟩ := runOps_polls_settled s.wcnt s (.inr le_rfl)
  refine ⟨t, hrun, fun n => ?_, ht⟩
  refine runOps_keeps (P := fun u => u.bytes = t.bytes) (kind := (· = .poll false)) ?_ _ t
    (fun i hi => List.eq_of_mem_replicate hi) rfl
  rintro _ u rfl hu
  obtain ⟨v, he⟩ := exists_effect_poll false u
  exact ⟨v, he, (he.poll_bytes_of_settled ((State.settled_congr hu).2 ht)).trans hu⟩

/-- Settles O36: an oversized frame stays through every operation but CLEAR and RESET. -/
theorem oversizedFrameStallsUntilClear : Obligations.OversizedFrameStallsUntilClear := by
  intro ops s hcap hfull hstart hlong hops
  have hs : s.Oversized := ⟨hfull ▸ hcap, hfull.ge, hstart, hfull ▸ hlong⟩
  obtain ⟨t, hrun, hframe, hbytes⟩ : ∃ t, runOps ops s = .next t ∧ s.NoFrameTo t ∧ t.bytes = s.bytes := by
    refine runOps_keeps (kind := fun i => i.isOperation = true ∧ i.isCancel = false) ?_ ops s hops ⟨.refl s, rfl⟩
    rintro i u ⟨hop, hkeep⟩ ⟨hframe, hbytes⟩
    obtain ⟨v, he, hframe', hbytes'⟩ := (hs.congr hbytes hframe.cfg).exists_effect hop hkeep
    exact ⟨v, he, hframe.trans hframe', hbytes'.trans hbytes⟩
  have ht := hs.congr hbytes hframe.cfg
  refine ⟨t, hrun, hbytes, by rw [← State.length_bytes, hbytes, State.length_bytes], hframe.cfg, hframe.rxFrames,
    hframe.rxInvalid, hframe.events, hframe.dspType, hframe.dspLen, hframe.dspPayload, fun x => ?_⟩
  exact ⟨_, (ht.effect_poll x).exec, rfl, ht.resynced_bytes.trans hbytes⟩

/-- Settles O37: without START there is nothing to synchronise on, so every POLL defers. -/
theorem noiseChangesNoFrameCounter : Obligations.NoiseChangesNoFrameCounter := by
  intro ops s hs hpushed hdel
  have hops : ∀ i ∈ ops, i.isDelivery = true ∧ i ≠ .push START := fun i hi =>
    ⟨hdel i hi, fun h => hpushed (mem_pushedBytes (h ▸ hi))⟩
  obtain ⟨t, hrun, hframe, ht⟩ : ∃ t, runOps ops s = .next t ∧ s.NoFrameTo t ∧ START ∉ t.bytes := by
    refine runOps_keeps (kind := fun i => i.isDelivery = true ∧ i ≠ .push START) ?_ ops s hops ⟨.refl s, hs⟩
    rintro i u ⟨hi, hne⟩ ⟨hframe, hu⟩
    obtain ⟨v, he, hframe', hv⟩ := exists_effect_of_noise hi hne hu
    exact ⟨v, he, hframe.trans hframe', hv⟩
  exact ⟨t, hrun, hframe.rxFrames, hframe.rxInvalid, hframe.events, ht⟩

/-- Settles O38: up to the last byte the frame is incomplete, and after it the frame stands behind noise
with nothing behind it. -/
theorem fragmentationDoesNotMatter : Obligations.FragmentationDoesNotMatter := by
  intro s f ops b hs hwf hdel hpushed hroom
  obtain ⟨hcand, -⟩ := (wireWellFormed_iff f).1 hwf
  constructor
  case left =>
    rintro a c rfl
    have hc : IsCandidate (pushedBytes a ++ (pushedBytes c ++ [b])) := by
      rw [← hpushed] at hcand
      simpa using hcand
    rw [List.append_assoc] at hroom
    obtain ⟨-, -, hroom', -⟩ := noByteLost_append hroom
    obtain ⟨u, hrun, hu, hdefer⟩ :=
      runOps_of_part hs a _ (fun i hi => hdel i (List.mem_append_left c hi)) hroom' hc (by simp)
    obtain ⟨noise, hnoise, hbytes⟩ := hu.window
    exact ⟨u, noise, hrun, hnoise, hbytes, hu.noFrame.rxFrames, hu.noFrame.rxInvalid, hu.noFrame.events, hdefer⟩
  case right =>
    obtain ⟨u, hrun, hu⟩ := runOps_of_frame hs hdel (by simpa using hpushed) hcand hroom
    refine ⟨u, hrun, fun x => ?_⟩
    obtain ⟨hpoll, hempty⟩ := hu.effect_poll_of_wireWellFormed hwf x
    refine ⟨_, hpoll.exec, ?empty, ?frames, ?invalid, ?dropped, fun hsink => ?sink, fun hsink => ?noSink⟩
    case empty => rw [State.deliver_wcnt, ← State.length_bytes, hempty, List.length_nil]
    case frames => simp [bump, hu.noFrame.rxFrames, hu.noFrame.cfg]
    case invalid => simp [hu.noFrame.rxInvalid]
    case dropped => simp [hu.rxDropped]
    case sink =>
      have hsink' : u.extracted.handlerEn = true := hu.handlerEn.trans hsink
      rw [State.deliver_on hsink', ofNat_payloadBytes_length hcand, ← hu.noFrame.events]
      exact ⟨rfl, rfl⟩
    case noSink =>
      have hsink' : u.extracted.handlerEn = false := hu.handlerEn.trans hsink
      rw [State.deliver_off hsink', ← hu.noFrame.events]
      exact ⟨rfl, rfl⟩

/-- Settles O25: fewer than four bytes from the first START on, so some of the four were noise. -/
theorem pollDiscardsNoiseThenDefers : Obligations.PollDiscardsNoiseThenDefers := by
  intro x s noise rest henough hbytes hnoise hrest hfew
  have hsync := State.synced_of_noise hbytes hnoise hrest
  have hcount : s.wcnt = noise.length + rest.length := by rw [← State.length_bytes, hbytes, List.length_append]
  refine ⟨by omega, s.resynced.win, ?_, State.prefixBytes_win (s.resynced_bytes.trans hsync)⟩
  have hpoll := (Effect.resync x henough (hsync ▸ hfew)).exec
  rw [s.resynced_eq, hsync] at hpoll
  exact hpoll

/-- Settles O26: the bytes from START on are fewer than their LENGTH declares. -/
theorem pollDefersOnPartialFrame : Obligations.PollDefersOnPartialFrame := by
  intro x s noise rest hbytes hnoise hstart hheader hfew
  have hsync := State.synced_of_noise hbytes hnoise (.inr hstart)
  have henough : 4 ≤ s.wcnt := (hsync ▸ hheader : 4 ≤ s.synced.length).trans s.synced_length_le
  refine ⟨s.resynced.win, ?_, State.prefixBytes_win (s.resynced_bytes.trans hsync)⟩
  have hpoll := (Effect.incomplete x henough (hsync ▸ hheader) (hsync ▸ hfew)).exec
  rw [s.resynced_eq, hsync] at hpoll
  exact hpoll

/-- Settles O27: extraction leaves the bytes behind the frame, and a delivery with a sink does the rest. -/
theorem pollDispatchesValidFrame : Obligations.PollDispatchesValidFrame := by
  intro x s noise tail p t hbytes hnoise hp hsink
  obtain ⟨he, hleft⟩ := effect_poll_of_frame x hnoise hp hbytes
  refine ⟨s.extracted.win, s.dspPayload.writeBytes 0 p, ?run, State.prefixBytes_win hleft,
    Memory.prefixBytes_writeBytes _ p, fun i hi => Memory.read_writeBytes_other (.inr (by omega))⟩
  case run =>
    have hsink' : s.extracted.handlerEn = true := hsink
    rw [he.exec, State.deliver_on hsink', State.extracted_eq_of_bytes hleft]
    rfl

/-- Settles O29: extraction leaves the bytes behind the candidate, and only RX_INVALID and LAST_RESULT are
written besides. -/
theorem pollCountsInvalidCandidate : Obligations.PollCountsInvalidCandidate := by
  intro x s noise c tail hbytes hnoise hc hbad
  obtain ⟨he, hleft⟩ := effect_poll_of_bad_candidate x hnoise hc hbad hbytes
  refine ⟨s.extracted.win, ?_, State.prefixBytes_win hleft⟩
  rw [he.exec, State.extracted_eq_of_bytes hleft]
  rfl

/-- Settles O32: a deferral counts nothing, a delivery one frame, a failed test one invalid candidate. -/
theorem atMostOneFramePerPoll : Obligations.AtMostOneFramePerPoll := by
  intro x s
  obtain ⟨t, he⟩ := exists_effect_poll x s
  refine ⟨t, he.exec, ?_⟩
  rcases he.poll_cases with ⟨-, rfl⟩ | ⟨-, -, rfl⟩ | ⟨-, -, rfl⟩ | ⟨-, rfl⟩ | ⟨-, rfl⟩
  · exact .inl ⟨rfl, rfl, rfl⟩
  · exact .inl ⟨rfl, rfl, rfl⟩
  · exact .inl ⟨rfl, rfl, rfl⟩
  · exact .inr (.inl ⟨by simp [bump], by simp, State.deliver_events_cases _ _ _⟩)
  · exact .inr (.inr ⟨rfl, rfl, rfl⟩)

/-- Settles O33, outcome by outcome. -/
theorem pollRemovesBytesOrProvesNoFrame : Obligations.PollRemovesBytesOrProvesNoFrame := by
  intro x s
  obtain ⟨t, he⟩ := exists_effect_poll x s
  refine ⟨t, he.exec, ⟨_, List.suffix_iff_eq_drop.1 he.poll_bytes_suffix⟩, ?_⟩
  rcases he.poll_cases with ⟨few, rfl⟩ | ⟨enough, few, rfl⟩ | ⟨header, part, rfl⟩ | ⟨complete, rfl⟩ | ⟨complete, rfl⟩
  · exact ⟨fun _ => ⟨few, rfl⟩, nofun, nofun, nofun⟩
  · refine ⟨nofun, fun _ => ?_, nofun, nofun⟩
    rw [State.setResult_wcnt, State.resynced_wcnt]
    omega
  · refine ⟨nofun, nofun, fun _ => ?_, nofun⟩
    rw [State.setResult_wcnt, State.setResult_bytes, State.resynced_wcnt, State.resynced_bytes]
    exact ⟨State.synced_start header, header, part⟩
  · rw [State.deliver_wcnt]
    have hremoved := State.extracted_wcnt_add_le complete
    rcases State.deliver_lastResult_cases _ _ _ with hres | hres <;>
      exact hres ▸ ⟨nofun, nofun, nofun, fun _ => hremoved⟩
  · exact ⟨nofun, nofun, nofun, fun _ => State.extracted_wcnt_add_le complete⟩

/-- Settles O35: no frame declares more than 259 bytes, so a full window of that size is not settled. -/
theorem fullWindowAlwaysProgresses : Obligations.FullWindowAlwaysProgresses := by
  intro x s hcap hfull
  have hnot : ¬ s.Settled := by
    have hmax := seqLength_le s.bytes
    rintro (hshort | ⟨-, hpart⟩)
    · omega
    · omega
  obtain ⟨t, he⟩ := exists_effect_poll x s
  exact ⟨t, he.exec, he.poll_wcnt_lt hnot⟩

/-- Settles O24: a POLL on a short window is the first of its ways. -/
theorem pollDefersWhenShort : Obligations.PollDefersWhenShort := fun x _ hfew => (Effect.short x hfew).exec

end Sys2Proof.Machine

/-! ## SET_HANDLER and RESERVED (44_control.md) -/

namespace Sys2Proof.Machine

/-- Settles O41: the one way of a SET_HANDLER is the update of HANDLER_EN (R96). -/
theorem setHandlerWritesTheEnableOnly : Obligations.SetHandlerWritesTheEnableOnly :=
  fun en _ => (Effect.handler en).exec

/-- Settles O42: the one way of a RESERVED leads back to the state it began in (R97). -/
theorem reservedChangesNothing : Obligations.ReservedChangesNothing :=
  fun x _ => (Effect.reserved x).exec

end Sys2Proof.Machine

/-! ## POLL without a sink (45_dispatch.md R105) -/

namespace Sys2Proof.Machine

/-- Settles O28: extraction leaves the bytes behind the frame, and a delivery without a sink writes only
RX_FRAMES and LAST_RESULT. -/
theorem pollCountsUnhandledFrame : Obligations.PollCountsUnhandledFrame := by
  intro x s noise tail p t hbytes hnoise hp hsink
  obtain ⟨he, hleft⟩ := effect_poll_of_frame x hnoise hp hbytes
  refine ⟨s.extracted.win, ?_, State.prefixBytes_win hleft⟩
  have hsink' : s.extracted.handlerEn = false := hsink
  rw [he.exec, State.deliver_off hsink', State.extracted_eq_of_bytes hleft]
  rfl

end Sys2Proof.Machine

/-! ## Completion and the order of outcomes (60_exceptions.md) -/

namespace Sys2Proof.Machine

/-! ### Every step completes (R107) -/

/-- Under a legal configuration a step completes, and leaves the configuration as it is. -/
theorem exists_step_next {s : State} (hok : s.cfg.ok = true) : ∃ t, step s = .next t ∧ t.cfg = s.cfg := by
  rcases fetch_cases s with ⟨ps, hfetch⟩ | ⟨i, ps, hfetch, hop⟩
  · exact ⟨_, step_of_fetch_idle hok hfetch, rfl⟩
  · obtain ⟨t, ht, he⟩ := operation_effect hop (s.withPorts ps)
    exact ⟨t, (step_of_fetch_operation hok hfetch).trans ht, he.cfg_ports_eq.1⟩

/-- Each step leaves the legal configuration that the next one needs. -/
theorem core_run_safe (n : Nat) {s : State} (hok : s.cfg.ok = true) : Safe (core.run n s) := by
  induction n generalizing s with
  | zero => exact ⟨s, rfl⟩
  | succ n ih =>
    obtain ⟨t, hstep, hcfg⟩ := exists_step_next hok
    rw [core_run_succ hstep]
    exact ih (hcfg ▸ hok)

/-! ### The obligations -/

/-- Settles O30: each branch of the order is the guard of one of POLL's effects (R111). -/
theorem pollOutcomePriority : Obligations.PollOutcomePriority := by
  intro x s
  change ∃ t, exec (.poll x) s = .next t ∧ t.lastResult =
    if s.wcnt < 4 then .deferShort
    else if s.synced.length < 4 then .deferResync
    else if s.synced.length < seqLength s.synced then .deferPartial
    else if checksumOK (s.synced.take (seqLength s.synced)) then
      if s.handlerEn then .validDispatched else .validUnhandled
    else .invalid
  split_ifs with short noHeader part sum sink
  · exact ⟨_, (Effect.short x short).exec, rfl⟩
  · exact ⟨_, (Effect.resync x (not_lt.1 short) noHeader).exec, rfl⟩
  · exact ⟨_, (Effect.incomplete x (not_lt.1 short) (not_lt.1 noHeader) part).exec, rfl⟩
  · exact ⟨_, (Effect.valid x (not_lt.1 short) (not_lt.1 part) sum).exec,
      (State.deliver_lastResult _ _ _).trans (if_pos sink)⟩
  · exact ⟨_, (Effect.valid x (not_lt.1 short) (not_lt.1 part) sum).exec,
      (State.deliver_lastResult _ _ _).trans (if_neg sink)⟩
  · exact ⟨_, (Effect.invalid x (not_lt.1 short) (not_lt.1 part) (Bool.eq_false_iff.2 sum)).exec, rfl⟩

/-- Settles O60: a well-formed instruction's payload fits, so it has an effect; the steps are
`core_run_safe`. -/
theorem everyOperationCompletes : Obligations.EveryOperationCompletes := by
  constructor
  · intro i s hwf
    obtain ⟨t, he⟩ := exists_effect (Instr.payloadFits_of_wellFormed hwf) s
    exact ⟨t, he.exec⟩
  · exact fun n _ hok => core_run_safe n hok

end Sys2Proof.Machine

/-! ## Frame forms the builder refuses (30_encoding.md R69, 41_checksum.md R76) -/

namespace Sys2Proof.Machine

/-- Settles O45: a payload of more than 255 bytes does not fit, and what does not fit is refused (log 17). -/
theorem oversizedFrameFormIsRefused : Obligations.OversizedFrameFormIsRefused := by
  intro i k p s hframe hlong
  have hfits : ¬ i.PayloadFits := fun h => hlong.not_ge (h k p hframe)
  exact exec_of_not_payloadFits hfits s

end Sys2Proof.Machine
